-- ==== Sys2Proof/Word.lean ====
section
/-! DEFINITION. The fixed-width words of HRPT-FR: bytes (R21), 16-bit samples and words (R29, R204), the 32-bit
registers (R34, R36, R37) and the 64-bit values a host register access carries (R38, R39). -/
namespace Sys2Proof

/-- A byte of a buffer (R12, R21) and the 8-bit command word (R90). -/
abbrev Byte := BitVec 8

/-- A 16-bit word (R204) or scaled sample (R29, R30). -/
abbrev Half := BitVec 16

/-- A 32-bit register: CONFIG, STATUS, VALID (R34, R36, R37). -/
abbrev Word := BitVec 32

/-- The 64-bit value of a host access to a length, count or argument register (R38, R39). -/
abbrev Dword := BitVec 64

end Sys2Proof
end

