-- ==== Sys2Proof/Syntax.lean ====
section
/-! DEFINITION. The operation set HRPT-FR/1: the twelve commands of the command map (R2, R92). -/
namespace Sys2Proof

/-- One constructor per row of the command map (R92). No command carries an operand in its command word
(R90, R93), so no constructor has a field. -/
inductive Instr where
  /-- 0x00, nothing (R220). -/
  | nop
  /-- 0x01, all state to its reset value (R221). -/
  | reset
  /-- 0x02, generates the derandomization table (R174). -/
  | drgen
  /-- 0x10, Manchester-decodes CAP into LDB (R133). -/
  | ldec
  /-- 0x20, one synchronization pass, producing FS (R152). -/
  | sync
  /-- 0x30, direct sub-channel extraction into DMX (R182). -/
  | demuxd
  /-- 0x31, M-PDU extraction into DMX and BND (R188). -/
  | demuxm
  /-- 0x32, derives the span list SPN from BND (R226). -/
  | spans
  /-- 0x40, unpacks packed 10-bit samples into PIX (R202). -/
  | unpk10
  /-- 0x41, unpacks 16-bit word samples into PIX (R205). -/
  | unpk16
  /-- 0x42, copies one channel of PIX into a row of CHI (R209). -/
  | chsel
  /-- 0x43, builds the channel image CHI from the LINE inventory (R228). -/
  | decch
  deriving DecidableEq, Repr

end Sys2Proof
end

