-- ==== Sys2Proof/Config.lean ====
section
/-! DEFINITION. The family constants of R8 as a record of plain data (R7: a model takes every one of them as an
argument), the configurations R10 names, and the free values of the machine. -/
namespace Sys2Proof

/-- The three satellite families (R3). -/
inductive Family where
  /-- Direct HRPT byte sync. -/
  | d
  /-- Manchester-coded transport frames. -/
  | m
  /-- CCSDS space packets inside derandomized frames. -/
  | c
  deriving DecidableEq, Repr

/-- `BIT_ORDER` of the Bit Expander (R8, R60). -/
inductive BitOrder where
  | msb
  | lsb
  deriving DecidableEq, Repr

/-- `WORD_ORDER` of 16-bit words (R8, R204). -/
inductive WordOrder where
  | le
  | be
  deriving DecidableEq, Repr

/-- `LD_TABLE` (R8, R131) as plain data: the default first-half rule of R132 but for the listed entries
`(a, b, decoded)`, the first entry of a pair counting. Every total function on byte pairs has this form
(`Machine.ldTable_represents`). Log 8. -/
structure LdTable where
  exceptions : List (Byte × Byte × Byte)
  deriving DecidableEq, Repr

/-- The rows of R8 that every family has. For family D the rows R8 marks unused are read by no rule. -/
structure FamilyConsts where
  /-- `W`, the marker width in bits. -/
  w : Nat
  /-- `MARKER`, W bits; for family D the six words, the first in the high bits (R142, log 16). -/
  marker : Nat
  /-- `STRIDE_BITS`. -/
  strideBits : Nat
  /-- `UNIT`, the scan step of UNLOCKED and RESYNC. -/
  unit : Nat
  /-- `LOCKING`. -/
  locking : Bool
  t0 : Nat
  t1 : Nat
  t2 : Nat
  t3 : Nat
  /-- `N_GOOD`. -/
  nGood : Nat
  /-- `N_BAD`. -/
  nBad : Nat
  /-- `N_SLIP`. -/
  nSlip : Nat
  /-- `RESYNC_BUDGET`. -/
  resyncBudget : Nat
  bitOrder : BitOrder
  /-- `INVERT`. -/
  invert : Bool
  /-- `NCH`. -/
  nch : Nat
  /-- `WIDTH`. -/
  width : Nat
  /-- `MULT`. -/
  mult : Nat
  deriving DecidableEq, Repr

/-- The configuration record: every row of R8. -/
structure Config where
  d : FamilyConsts
  m : FamilyConsts
  c : FamilyConsts
  /-- `LD_TABLE` (family M). -/
  ldTable : LdTable
  /-- `DX_N` (family M). -/
  dxN : Nat
  /-- `DX_LEN[0..3]` in bytes (family M). -/
  dxLen : List Nat
  /-- `DX_OFF[0..3]` in bits (family M). -/
  dxOff : List Nat
  /-- `VCID_SEL` (family C). -/
  vcidSel : Nat
  /-- `WORD_ORDER` (family D). -/
  wordOrder : WordOrder
  /-- `PIXEL_START`, per spacecraft variant (family C); no rule reads it (R225). -/
  pixelStart : List Nat
  /-- `APID_SEL[0..1]` (family C); no rule reads it (R225). -/
  apidSel : List Nat
  deriving DecidableEq, Repr

/-- The constants of one family. -/
def Config.family (c : Config) : Family → FamilyConsts
  | .d => c.d
  | .m => c.m
  | .c => c.c

/-- The buffers that store elements (R21 to R31 but R23, which is only a name). -/
inductive BufId where
  | cap
  | ldb
  | fs
  | drt
  | dmx
  | bnd
  | spn
  | pix
  | chi
  | line
  deriving DecidableEq, Repr

/-- FREE VALUE (R42, V6): what an element of a buffer holds when nothing has written it since the last reset,
by the number of resets so far, the buffer and the index. A read of a narrower element takes its low bits. Log 5. -/
opaque Config.unwritten : Nat → BufId → Nat → BitVec 64

/-- The transport-frame constants of the reference configuration REF (R10), with the source values of R8;
`nch` and `width` differ between families M and C. -/
def FamilyConsts.refTransport (nch width : Nat) : FamilyConsts :=
  { w := 32, marker := 0x1ACFFC1D, strideBits := 8192, unit := 1, locking := true,
    t0 := 1, t1 := 4, t2 := 2, t3 := 8, nGood := 5, nBad := 5, nSlip := 2, resyncBudget := 8192,
    bitOrder := .msb, invert := false, nch := nch, width := width, mult := 60 }

/-- The family D constants: source values of R8, the suggested six marker words, the spec's default bit order.
The rows that R8 marks unused hold 0. -/
def FamilyConsts.refDirect : FamilyConsts :=
  { w := 96, marker := 0x0284016F035C019D020F0095, strideBits := 177440, unit := 16, locking := false,
    t0 := 0, t1 := 0, t2 := 0, t3 := 0, nGood := 0, nBad := 0, nSlip := 0, resyncBudget := 0,
    bitOrder := .msb, invert := false, nch := 5, width := 2048, mult := 40 }

/-- The reference configuration REF of R10, completed by the source values and the defaults of R8. Log 2. -/
def Config.reference : Config :=
  { d := FamilyConsts.refDirect, m := FamilyConsts.refTransport 6 1572, c := FamilyConsts.refTransport 5 2048,
    ldTable := { exceptions := [] }, dxN := 4, dxLen := [238, 238, 238, 234], dxOff := [176, 2224, 4272, 6320],
    vcidSel := 9, wordOrder := .le, pixelStart := [], apidSel := [0, 0] }

/-- The test configuration TINY of R10, in family M. Family C keeps its stride, which R9 bounds by 8192 from below. -/
def Config.tiny : Config :=
  { Config.reference with
    m := { FamilyConsts.refTransport 6 1572 with strideBits := 96, resyncBudget := 96 }
    dxLen := [1, 1, 1, 1]
    dxOff := [40, 56, 72, 88] }

/-- The variation SMALL of R10, of one family. -/
def FamilyConsts.small (k : FamilyConsts) : FamilyConsts := { k with nch := 2, width := 4 }

/-- The variation SMALL of R10, of every family. -/
def Config.small (c : Config) : Config := { c with d := c.d.small, m := c.m.small, c := c.c.small }

/-- The test configuration TINY-D of R10. -/
def Config.tinyD : Config :=
  { Config.reference with d := { FamilyConsts.refDirect.small with strideBits := 256 } }

end Sys2Proof
end

