-- ==== Sys2Proof/Machine/Parameters.lean ====
section
/-! DEFINITION. The constraints that make a record a configuration of HRPT-FR (R8, R9), one check each. A record that
breaks one is not a configuration and the machine refuses it (R9, V9; log 25). -/
namespace Sys2Proof.Machine

/-- R9: `0 <= T0 <= T2 <= T1 <= T3 <= W` (families M and C; family D uses T0 only). -/
def thresholdsOrdered (k : FamilyConsts) : Bool :=
  decide (k.t0 ≤ k.t2) && decide (k.t2 ≤ k.t1) && decide (k.t1 ≤ k.t3) && decide (k.t3 ≤ k.w)

/-- R9: `RESYNC_BUDGET >= 1` (families M and C). -/
def budgetPositive (k : FamilyConsts) : Bool := decide (1 ≤ k.resyncBudget)

/-- R8: the marker is a pattern of W bits. R9: `W <= STRIDE_BITS`. -/
def markerFits (k : FamilyConsts) : Bool := decide (k.marker < 2 ^ k.w) && decide (k.w ≤ k.strideBits)

/-- The rows of R8 whose value the source states for the transport families and no configuration of the spec
varies. Log 3. -/
def transportSourceValues (k : FamilyConsts) : Bool :=
  decide (k.w = 32) && decide (k.unit = 1) && k.locking && decide (k.nGood = 5) && decide (k.nBad = 5) &&
    decide (k.nSlip = 2) && decide (k.mult = 60)

/-- The same for family D (R8, R155). Log 3. -/
def directSourceValues (k : FamilyConsts) : Bool :=
  decide (k.w = 96) && decide (k.unit = 16) && !k.locking && decide (k.t0 = 0) && decide (k.mult = 40)

/-- R9: in family C `STRIDE_BITS >= 8192`. -/
def cStrideLongEnough (c : Config) : Bool := decide (8192 ≤ c.c.strideBits)

/-- R8: `DX_N` is 4, and there is a length and an offset for each span. -/
def spanCount (c : Config) : Bool :=
  decide (c.dxN = 4) && decide (c.dxLen.length = 4) && decide (c.dxOff.length = 4)

/-- R9: for every span `DX_OFF[i] + 8*DX_LEN[i] <= STRIDE_BITS` (family M). -/
def spansInsideFrame (c : Config) : Bool :=
  (List.range c.dxN).all fun i => decide (c.dxOff.getD i 0 + 8 * c.dxLen.getD i 0 ≤ c.m.strideBits)

/-- D21: `VCID_SEL` is in 0..63. -/
def vcidSelFits (c : Config) : Bool := decide (c.vcidSel < 64)

/-- R8: `APID_SEL` has two entries. -/
def apidCount (c : Config) : Bool := decide (c.apidSel.length = 2)

/-- The constraints on the constants of family D. -/
def directAdmits (k : FamilyConsts) : Bool := directSourceValues k && markerFits k

/-- The constraints on the constants of a transport family, M or C. -/
def transportAdmits (k : FamilyConsts) : Bool :=
  transportSourceValues k && (markerFits k && (thresholdsOrdered k && budgetPositive k))

/-- Whether the record is a configuration of HRPT-FR (R8, R9). -/
def admits (c : Config) : Bool :=
  directAdmits c.d && (transportAdmits c.m && (transportAdmits c.c && (cStrideLongEnough c && (spanCount c &&
    (spansInsideFrame c && (vcidSelFits c && apidCount c))))))

end Sys2Proof.Machine
end

