-- ==== Sys2Proof/WellFormed.lean ====
section
/-! DEFINITION. Well-formedness of the terms the machine is given: commands and configuration records. -/
namespace Sys2Proof

/-- Every command is well formed: the command word has no field whose value could be out of range (R90, R93). -/
def Instr.wf (_ : Instr) : Bool := true

/-- A record is a configuration of HRPT-FR when it keeps the constraints of R8 and R9; the checks, one definition
each, stand in Machine/Parameters.lean. -/
def Config.wf (c : Config) : Bool := Machine.admits c

end Sys2Proof
end

