-- ==== Sys2Proof/Decode.lean ====
section
/-! DEFINITION. The decoder of the command word (format C8, R90, R92, R94) and the encoder. -/
namespace Sys2Proof

/-- Why bytes are no command. -/
inductive DecodeError where
  /-- No byte was given. -/
  | noByte
  /-- A reserved code (R94): the 244 values outside the map of R92. -/
  | reserved (code : Byte)
  deriving DecidableEq, Repr

/-- The command map (R92): every legal code in full (R90). -/
def commandMap : List (Byte × Instr) :=
  [(0x00#8, .nop), (0x01#8, .reset), (0x02#8, .drgen), (0x10#8, .ldec), (0x20#8, .sync), (0x30#8, .demuxd),
   (0x31#8, .demuxm), (0x32#8, .spans), (0x40#8, .unpk10), (0x41#8, .unpk16), (0x42#8, .chsel), (0x43#8, .decch)]

/-- The command a code of the map names. -/
def lookupCode (c : Byte) : List (Byte × Instr) → Option Instr
  | [] => none
  | (code, i) :: rest => if c = code then some i else lookupCode c rest

/-- The command of one command word, or a rejection by name. -/
def decodeCommand (c : Byte) : Except DecodeError Instr :=
  match lookupCode c commandMap with
  | some i => .ok i
  | none => .error (.reserved c)

/-- The first command of a list of bytes and the bytes after it: a command is exactly one byte (R90). -/
def decodeBytes : List Byte → Except DecodeError (Instr × List Byte)
  | [] => .error .noByte
  | c :: rest =>
    match decodeCommand c with
    | .ok i => .ok (i, rest)
    | .error e => .error e

/-- The bytes of an instruction's bits as spec/opcode_table.json numbers them: byte k is bits 8k+7 to 8k. -/
def tableBytes (nbits w : Nat) : List Byte :=
  (List.range (nbits / 8)).map fun k => BitVec.ofNat 8 (w >>> (8 * k))

/-- The instruction the decoder reads from an instruction whose bits are `w`. -/
def decodeTableWord (nbits w : Nat) : Option Instr :=
  match decodeBytes (tableBytes nbits w) with
  | .ok (i, []) => some i
  | _ => none

/-- The command word of a command (R92). -/
def encode : Instr → List Byte
  | .nop => [0x00#8]
  | .reset => [0x01#8]
  | .drgen => [0x02#8]
  | .ldec => [0x10#8]
  | .sync => [0x20#8]
  | .demuxd => [0x30#8]
  | .demuxm => [0x31#8]
  | .spans => [0x32#8]
  | .unpk10 => [0x40#8]
  | .unpk16 => [0x41#8]
  | .chsel => [0x42#8]
  | .decch => [0x43#8]

end Sys2Proof
end

