-- ==== Sys2Proof/Machine/Lfsr.lean ====
section
/-! DEFINITION. The shift register of the derandomizer and the table it generates (R171, R172, R174). -/
namespace Sys2Proof.Machine

/-- The output bit of one shift: `r[7]` (R171). -/
def lfsrOut (r : Byte) : Bool := r.getLsbD 7

/-- The feedback bit: `r[7] ^ r[4] ^ r[2] ^ r[0]` (R171). -/
def lfsrFeedback (r : Byte) : Bool := r.getLsbD 7 ^^ r.getLsbD 4 ^^ r.getLsbD 2 ^^ r.getLsbD 0

/-- The register after one shift: shifted left, the feedback in bit 0 (R171). -/
def lfsrShift (r : Byte) : Byte := (r <<< 1) ||| (BitVec.ofBool (lfsrFeedback r)).setWidth 8

/-- `n` shifts that collect the output bits into `v`, the first in the highest place (R174's inner loop). -/
def lfsrCollect : Nat → Byte → Byte → Byte × Byte
  | 0, r, v => (r, v)
  | n + 1, r, v => lfsrCollect n (lfsrShift r) ((v <<< 1) ||| (BitVec.ofBool (lfsrOut r)).setWidth 8)

/-- Eight shifts: the register after them and the byte of their output bits, the first in bit 7 (R171, R174). -/
def lfsrByte (r : Byte) : Byte × Byte := lfsrCollect 8 r 0

/-- `n` bytes of the output from a register: the register after them and the bytes in order (R174's outer loop). -/
def lfsrBytes : Nat → Byte → Byte × List Byte
  | 0, r => (r, [])
  | n + 1, r =>
    let b := lfsrByte r
    let rest := lfsrBytes n b.1
    (rest.1, b.2 :: rest.2)

/-- The seed of the register (R171). -/
def lfsrSeed : Byte := 0xFF#8

/-- The register after `n` shifts from the seed. -/
def lfsrAfter : Nat → Byte
  | 0 => lfsrSeed
  | n + 1 => lfsrShift (lfsrAfter n)

/-- `DrByte(k)`: the output bits of shifts `8k` to `8k + 7` from the seed, the first in bit 7 (R171). -/
def drByte (k : Nat) : Byte := (lfsrByte (lfsrAfter (8 * k))).2

/-- What generating the table leaves: the register after 8160 shifts, and the 1024 bytes, four zeros and then the
1020 generated ones (R172, R174). -/
def drGenerate : Byte × List Byte :=
  let g := lfsrBytes 1020 lfsrSeed
  (g.1, [0x00#8, 0x00#8, 0x00#8, 0x00#8] ++ g.2)

end Sys2Proof.Machine
end

