-- ==== Sys2Proof/Machine/Memory.lean ====
section
/-! DEFINITION. A buffer of the block as plain data: the written elements with their indices, rising (R20, R68).
An index that is not listed has been written by nothing and has no value here (R42, V6). -/
namespace Sys2Proof.Machine

/-- A buffer's written elements. For a buffer of bytes this is a list of `Host.Cell`. -/
abbrev Memory (α : Type) := List (Nat × α)

/-- The element at an index, if something has written it. -/
def Memory.read {α : Type} : Memory α → Nat → Option α
  | [], _ => none
  | (i, v) :: m, k => if i = k then some v else Memory.read m k

/-- One element written. -/
def Memory.write {α : Type} : Memory α → Nat → α → Memory α
  | [], k, v => [(k, v)]
  | (i, w) :: m, k, v =>
    if k < i then (k, v) :: (i, w) :: m
    else if i = k then (k, v) :: m
    else (i, w) :: Memory.write m k v

/-- `MemWrite(B, a, n, v)` of R13: consecutive elements written from index `a`. -/
def Memory.writeList {α : Type} (m : Memory α) (a : Nat) : List α → Memory α
  | [] => m
  | v :: vs => Memory.writeList (Memory.write m a v) (a + 1) vs

/-- The elements of a list at consecutive indices from `a`. -/
def Memory.enumFrom {α : Type} (a : Nat) : List α → Memory α
  | [] => []
  | v :: vs => (a, v) :: Memory.enumFrom (a + 1) vs

/-- A buffer that holds exactly a list, from index 0. -/
def Memory.ofList {α : Type} (vs : List α) : Memory α := Memory.enumFrom 0 vs

/-- The canonical form: indices strictly rising. An unlisted index has no value, so that no entry can equal it. -/
def Memory.wf {α : Type} : Memory α → Bool
  | [] => true
  | [_] => true
  | (i, _) :: (j, v) :: m => decide (i < j) && Memory.wf ((j, v) :: m)

end Sys2Proof.Machine
end

