-- ==== Sys2Proof/Machine/State.lean ====
section
/-! DEFINITION. The state of HRPT-FR as plain data (R20 to R42), the reasons a step can stop, and the state after
reset. -/
namespace Sys2Proof.Machine

/-- The lock states of the synchronizer (R32, R97). -/
inductive LockState where
  | unlocked
  | softLock
  | resync
  | hardLock
  deriving DecidableEq, Repr

/-- The code of a lock state (R97). -/
def LockState.code : LockState → BitVec 2
  | .unlocked => 0#2
  | .softLock => 1#2
  | .resync => 2#2
  | .hardLock => 3#2

/-- The FrameLock (R15, R32): lock state, consecutive-good and consecutive-bad counters, and whether the SOFT_LOCK
stay is inside a streak. The counters are held as naturals (D33, log 4). -/
structure FrameLock where
  st : LockState
  good : Nat
  bad : Nat
  streak : Bool
  deriving DecidableEq, Repr

/-- The FrameLock a pass starts with (R152) and reset leaves (R42). -/
def FrameLock.initial : FrameLock := { st := .unlocked, good := 0, bad := 0, streak := false }

/-- One access of the host, or a wait of its (R40, R95). Log 9. -/
inductive HostAccess where
  /-- `WR <register>, <value>`, the register by its number (R34 to R39, R68). -/
  | writeReg (number : Nat) (value : Dword)
  /-- `WR CONFIG.FAMILY, <value>` (R34, R95). -/
  | writeFamily (value : BitVec 2)
  /-- `WR CONFIG.PASSDIR, <value>` (R34, R95). -/
  | writePassdir (value : BitVec 1)
  /-- `WR CONFIG.CHANNEL, <value>` (R34, R95). -/
  | writeChannel (value : BitVec 4)
  /-- One byte of CAP written (R21). -/
  | writeCap (index : Nat) (value : Byte)
  /-- One element of LINE written (R31). -/
  | writeLine (index : Nat) (value : Dword)
  /-- `RD <register>` (R66, R95), the register by its number. -/
  | readReg (number : Nat)
  /-- `RD <buffer>` (R66, R95): every element below the buffer's length. -/
  | readBuffer (b : BufId)
  /-- "then read STATUS until DONE = 1" (R95). -/
  | poll
  /-- STATUS read until BUSY = 0, so that what follows is made "while idle" (R40, R95). -/
  | awaitIdle
  deriving DecidableEq, Repr

/-- The whole state: the spec's (R20) and three fields of the model's own, `cfg`, `host` and `era`. -/
structure State where
  /-- MODEL'S OWN: the family constants (R7, R8). Nothing writes it (R20). Log 1. -/
  cfg : Config
  /-- MODEL'S OWN: the host's accesses not made yet, oldest first. Log 9. -/
  host : List HostAccess
  /-- MODEL'S OWN: how many RESET commands have run; numbers the free contents (R42). Logs 5 and 6. -/
  era : Nat
  /-- CMD (R35): the code of the command in progress; none for "no command" (R42). Log 12. -/
  cmd : Option Byte
  /-- STATUS (R36). -/
  status : Word
  /-- CONFIG (R34). -/
  config : Word
  /-- VALID (R37). -/
  valid : Word
  /-- CAP_LEN (R38). Lengths, counts, arguments and offsets are naturals (D33, log 4). -/
  capLen : Nat
  /-- LDB_LEN (R38). -/
  ldbLen : Nat
  /-- FS_COUNT (R38). -/
  fsCount : Nat
  /-- DMX_LEN (R38). -/
  dmxLen : Nat
  /-- BND_COUNT (R38). -/
  bndCount : Nat
  /-- SPN_COUNT (R38). -/
  spnCount : Nat
  /-- LINE_COUNT (R38). -/
  lineCount : Nat
  /-- PIX_LEN (R38). -/
  pixLen : Nat
  /-- CHI_ROWS (R38). -/
  chiRows : Nat
  /-- ARG_BASE (R39). -/
  argBase : Nat
  /-- ARG_COUNT (R39). -/
  argCount : Nat
  /-- ARG_ROW (R39). -/
  argRow : Nat
  /-- CAP, the raw capture (R21). -/
  cap : Memory Byte
  /-- LDB, the line-decoded bytes (R22). -/
  ldb : Memory Byte
  /-- FS, the FrameStart list (R24). -/
  fs : Memory Nat
  /-- DRT, the derandomization table (R25). -/
  drt : Memory Byte
  /-- DMX, the demultiplexed byte stream (R26). -/
  dmx : Memory Byte
  /-- BND, the boundary-offset list (R27). -/
  bnd : Memory Nat
  /-- SPN, the span list (R28). -/
  spn : Memory (Nat × Nat)
  /-- PIX, the pixel line (R29). -/
  pix : Memory Half
  /-- CHI, the channel image (R30). -/
  chi : Memory Half
  /-- LINE, the scan-line inventory (R31). -/
  line : Memory Nat
  /-- `st`, `good`, `bad`, `streak` (R32). -/
  lock : FrameLock
  /-- `pos`, the scan cursor (R32, R33). -/
  pos : Nat
  /-- `lfsr` (R32, R171). -/
  lfsr : Byte
  deriving DecidableEq, Repr

/-- The ways a host access stops the machine; no command ever does (R240, R241, R248). -/
inductive Fault where
  /-- Raised by a host access to a register number above 0x0F: the spec numbers no such register (R68). Safe: the
  machine stops. Log 11. -/
  | noSuchRegister (number : Nat)
  /-- Raised by a host write of a value wider than the register (R34, R35): the spec gives no rule that narrows
  it. Safe: the machine stops. Log 11. -/
  | valueTooWide (number : Nat)
  deriving DecidableEq, Repr

/-- The ways the model declines a step. -/
inductive Refusal where
  /-- An instruction whose meaning is not written. Raised by no arm of this model. Safe. -/
  | notModelled (mnemonic : String)
  /-- Raised by every step of a machine whose record breaks a constraint of R8 or R9: "not a configuration of
  HRPT-FR and a model refuses it" (R9, V9). Safe. Log 25. -/
  | notAConfiguration
  deriving DecidableEq, Repr

/-- The table of R42 for a block built with the constants `c`. Contents of the buffers but DRT are unspecified, so
nothing is listed in them. -/
def State.resetWith (c : Config) : State :=
  { cfg := c, host := [], era := 0,
    cmd := none, status := 0x00000000#32, config := 0x00000000#32, valid := 0x00000000#32,
    capLen := 0, ldbLen := 0, fsCount := 0, dmxLen := 0, bndCount := 0, spnCount := 0, lineCount := 0,
    pixLen := 0, chiRows := 0, argBase := 0, argCount := 0, argRow := 0,
    cap := [], ldb := [], fs := [], drt := Memory.ofList drGenerate.2, dmx := [], bnd := [], spn := [],
    pix := [], chi := [], line := [],
    lock := FrameLock.initial, pos := 0, lfsr := lfsrSeed }

/-- The machine after power-on reset (R42, R260), built with the reference configuration (log 2). -/
def State.reset : State := State.resetWith Config.reference

end Sys2Proof.Machine
end

