-- ==== Sys2Proof/Machine/Flags.lean ====
section
/-! DEFINITION. The bits of STATUS (R36), VALID (R37) and CONFIG (R34) and their updates. -/
namespace Sys2Proof.Machine

/-- The flags of STATUS (R36). -/
inductive StatusFlag where
  | busy
  | done
  | empty
  | errCmd
  | errSeq
  | errArg
  | skip
  deriving DecidableEq, Repr

/-- The bit of a flag (R36). -/
def StatusFlag.bit : StatusFlag → Nat
  | .busy => 0
  | .done => 1
  | .empty => 2
  | .errCmd => 3
  | .errSeq => 4
  | .errArg => 5
  | .skip => 6

/-- The bits of STATUS that are not reserved (R36). -/
def statusMask : Word := 0x0000007F#32

/-- A flag as it stands. -/
def flag (s : State) (f : StatusFlag) : Bool := s.status.getLsbD f.bit

/-- One flag set. -/
def setFlag (f : StatusFlag) (s : State) : State := { s with status := s.status ||| (1#32 <<< f.bit) }

/-- One flag cleared. -/
def clearFlag (f : StatusFlag) (s : State) : State := { s with status := s.status &&& ~~~(1#32 <<< f.bit) }

/-- One flag set or cleared by a condition. -/
def putFlag (f : StatusFlag) (b : Bool) (s : State) : State := if b then setFlag f s else clearFlag f s

/-- The sticky error flags a refusal sets (R240, R242 to R244). -/
inductive ErrFlag where
  | errCmd
  | errSeq
  | errArg
  deriving DecidableEq, Repr

/-- The STATUS flag of an error. -/
def ErrFlag.flag : ErrFlag → StatusFlag
  | .errCmd => .errCmd
  | .errSeq => .errSeq
  | .errArg => .errArg

/-- The bits of VALID (R37). -/
inductive ValidBit where
  | ldb
  | fs
  | dmx
  | spn
  | pix
  | chi
  deriving DecidableEq, Repr

/-- The place of a VALID bit (R37). -/
def ValidBit.bit : ValidBit → Nat
  | .ldb => 0
  | .fs => 1
  | .dmx => 2
  | .spn => 3
  | .pix => 4
  | .chi => 5

/-- All six VALID bits. -/
def ValidBit.all : List ValidBit := [.ldb, .fs, .dmx, .spn, .pix, .chi]

/-- The bits of VALID that are not reserved (R37). -/
def validMask : Word := 0x0000003F#32

/-- A VALID bit as it stands. -/
def validBit (s : State) (v : ValidBit) : Bool := s.valid.getLsbD v.bit

/-- The word with exactly the given VALID bits. -/
def validWord : List ValidBit → Word
  | [] => 0#32
  | v :: vs => (1#32 <<< v.bit) ||| validWord vs

/-- One VALID bit set. -/
def setValid (v : ValidBit) (s : State) : State := { s with valid := s.valid ||| (1#32 <<< v.bit) }

/-- VALID bits cleared. -/
def clearValid (vs : List ValidBit) (s : State) : State := { s with valid := s.valid &&& ~~~(validWord vs) }

/-- The bits of CONFIG that are not reserved (R34). -/
def configMask : Word := 0x0000007F#32

/-- CONFIG.FAMILY as it stands in a CONFIG word (R34). -/
def familyField (config : Word) : BitVec 2 := config.extractLsb' 0 2

/-- The family of a FAMILY code; none for the reserved code 3 (R34, R98). -/
def familyOf (code : BitVec 2) : Option Family :=
  if code = 0#2 then some .d
  else if code = 1#2 then some .m
  else if code = 2#2 then some .c
  else none

/-- The selected family (R34). -/
def family (s : State) : Option Family := familyOf (familyField s.config)

/-- CONFIG.PASSDIR, which no rule reads (R34). -/
def passdir (s : State) : BitVec 1 := s.config.extractLsb' 2 1

/-- CONFIG.CHANNEL (R34). -/
def channel (s : State) : Nat := (s.config.extractLsb' 3 4).toNat

end Sys2Proof.Machine
end

