-- ==== Sys2Proof/Machine/Operands.lean ====
section
/-! DEFINITION. The operand forms: how the units read bits, bytes, samples and words out of buffers (R120 to R123,
R131, R132, R140 to R144, R173, R186, R200, R204, R206, R208, R236). Buffers are given as readers, index to element. -/
namespace Sys2Proof.Machine

/-- A bit as a number. -/
def bitNat (b : Bool) : Nat := if b then 1 else 0

/-! ### Bit Expander -/

/-- `Bit(B, i)` (R120, R60): bit `i` of a byte buffer in the order and polarity of the family. -/
def bitOf (order : BitOrder) (invert : Bool) (B : Nat → Byte) (i : Nat) : Bool :=
  match order with
  | .msb => (B (i / 8)).getLsbD (7 - i % 8) ^^ invert
  | .lsb => (B (i / 8)).getLsbD (i % 8) ^^ invert

/-- `Bits(B)` (R121): the BitSequence of a buffer under a family's constants, computed on demand. -/
def bits (k : FamilyConsts) (B : Nat → Byte) : Nat → Bool := bitOf k.bitOrder k.invert B

/-- `ByteAt(S, o)` (R122, R61): eight consecutive bits, the first the most significant. -/
def byteAt (S : Nat → Bool) (o : Nat) : Byte :=
  BitVec.ofNat 8 ((List.range 8).map fun j => bitNat (S (o + j)) <<< (7 - j)).sum

/-- `FrameByte(S, fs, k)` (R123): byte `k` of the frame that starts at bit `fs`. -/
def frameByte (S : Nat → Bool) (fs k : Nat) : Byte := byteAt S (fs + 8 * k)

/-! ### Line decoder -/

/-- Line bit `x[j]` of a byte pair in time order (R131). -/
def lineBit (a b : Byte) (j : Nat) : Bool := if j < 8 then a.getLsbD (7 - j) else b.getLsbD (15 - j)

/-- The default table (R132): decoded bit `7 - k` is `x[2k]`. -/
def firstHalf (a b : Byte) : Byte :=
  BitVec.ofNat 8 ((List.range 8).map fun k => bitNat (lineBit a b (2 * k)) <<< (7 - k)).sum

/-- The entry of a list of exceptions for a pair, the first one counting. -/
def ldLookup (a b : Byte) : List (Byte × Byte × Byte) → Option Byte
  | [] => none
  | (x, y, v) :: rest => if x = a ∧ y = b then some v else ldLookup a b rest

/-- `LdPair(a, b) = LD_TABLE(a, b)` (R131). -/
def ldPair (t : LdTable) (a b : Byte) : Byte := (ldLookup a b t.exceptions).getD (firstHalf a b)

/-! ### Marker comparison -/

/-- `MarkerBit(j)` (R140): bit `W - 1 - j` of MARKER. -/
def markerBit (k : FamilyConsts) (j : Nat) : Bool := k.marker.testBit (k.w - 1 - j)

/-- `Hamming(S, p)` (R141): in how many places the window at `p` differs from the marker. -/
def hamming (k : FamilyConsts) (S : Nat → Bool) (p : Nat) : Nat :=
  ((List.range k.w).map fun j => bitNat (S (p + j) ^^ markerBit k j)).sum

/-- `popcount` of a 16-bit word (R11). -/
def popcount16 (v : Half) : Nat := ((List.range 16).map fun b => bitNat (v.getLsbD b)).sum

/-- `MARKER_D[j]` (R142): word `j` of the six, the first in the high bits of MARKER (log 16). -/
def markerWord (k : FamilyConsts) (j : Nat) : Half := BitVec.ofNat 16 (k.marker >>> (16 * (5 - j)))

/-- Two bytes as a 16-bit word in a byte order (R204): in `LE` the first byte is the low one. -/
def wordOf (order : WordOrder) (first second : Byte) : Half :=
  match order with
  | .le => second ++ first
  | .be => first ++ second

/-- `Word16(B, k)` (R204): word `k` counted from byte 0. -/
def word16 (order : WordOrder) (B : Nat → Byte) (k : Nat) : Half := wordOf order (B (2 * k)) (B (2 * k + 1))

/-- `HammingD(p)` (R142): the distance of six whole words at the word-aligned candidate `p`. -/
def hammingD (order : WordOrder) (k : FamilyConsts) (B : Nat → Byte) (p : Nat) : Nat :=
  ((List.range 6).map fun j => popcount16 (word16 order B (p / 16 + j) ^^^ markerWord k j)).sum

/-! ### Sample unpacker -/

/-- `Sample10(B, a, i)` (R200, R105): sample `i` of the packed run that starts at byte `a`. -/
def sample10 (B : Nat → Byte) (a i : Nat) : Nat :=
  let b := fun j => (B (a + 5 * (i / 4) + j)).toNat
  match i % 4 with
  | 0 => (b 0 <<< 2) ||| (b 1 >>> 6)
  | 1 => ((b 1 % 64) <<< 4) ||| (b 2 >>> 4)
  | 2 => ((b 2 % 16) <<< 6) ||| (b 3 >>> 2)
  | _ => ((b 3 % 4) <<< 8) ||| b 4

/-- Sample `i` of the word form from byte `a` on: the low ten bits of the word (R106, R205, R228). -/
def sample16 (order : WordOrder) (B : Nat → Byte) (a i : Nat) : Nat :=
  (wordOf order (B (a + 2 * i)) (B (a + 2 * i + 1)) &&& 0x03FF#16).toNat

/-- `Scale(s)` (R206): the exact product with MULT, as a 16-bit element (R29). -/
def scale (mult s : Nat) : Half := BitVec.ofNat 16 (s * mult)

/-- `ChanIndex(c, p)` (R208): the flat index of pixel `p` of channel `c`. -/
def chanIndex (nch c p : Nat) : Nat := (c - 1) + p * nch

/-- `ceil(10 n / 8)` (R210): the bytes of `n` packed samples. -/
def packedBytes (n : Nat) : Nat := (10 * n + 7) / 8

end Sys2Proof.Machine
end

