-- ==== Sys2Proof/Machine/Ops.lean ====
section
/-! DEFINITION. The named operations over the state: reading elements, the start and the end of a command, and
taking the block's one exception, `raise Refuse(F)` (R13, R91, R240). There is no return from an exception: a refusal
leaves nothing pending (R222, R245). -/
namespace Sys2Proof.Machine

/-! ### Reading elements -/

/-- The free byte of an unwritten element (R42, V6). -/
def freeByte (s : State) (b : BufId) (k : Nat) : Byte := (Config.unwritten s.era b k).setWidth 8

/-- The free 16-bit element of an unwritten index (R42, V6). -/
def freeHalf (s : State) (b : BufId) (k : Nat) : Half := (Config.unwritten s.era b k).setWidth 16

/-- The free offset of an unwritten index (R42, V6). -/
def freeOffset (s : State) (b : BufId) (k : Nat) : Nat := (Config.unwritten s.era b k).toNat

/-- `CAP[k]` (R21). -/
def capByte (s : State) (k : Nat) : Byte := (Memory.read s.cap k).getD (freeByte s .cap k)

/-- `LDB[k]` (R22). -/
def ldbByte (s : State) (k : Nat) : Byte := (Memory.read s.ldb k).getD (freeByte s .ldb k)

/-- `DRT[i]` (R25). -/
def drtByte (s : State) (i : Nat) : Byte := (Memory.read s.drt i).getD (freeByte s .drt i)

/-- `DMX[k]` (R26). -/
def dmxByte (s : State) (k : Nat) : Byte := (Memory.read s.dmx k).getD (freeByte s .dmx k)

/-- `FS[f]` (R24). -/
def fsElem (s : State) (f : Nat) : Nat := (Memory.read s.fs f).getD (freeOffset s .fs f)

/-- `BND[i]` (R27). -/
def bndElem (s : State) (i : Nat) : Nat := (Memory.read s.bnd i).getD (freeOffset s .bnd i)

/-- `SPN[i]` (R28). -/
def spnElem (s : State) (i : Nat) : Nat × Nat :=
  (Memory.read s.spn i).getD (freeOffset s .spn (2 * i), freeOffset s .spn (2 * i + 1))

/-- `PIX[i]` (R29). -/
def pixElem (s : State) (i : Nat) : Half := (Memory.read s.pix i).getD (freeHalf s .pix i)

/-- `CHI[i]` (R30). -/
def chiElem (s : State) (i : Nat) : Half := (Memory.read s.chi i).getD (freeHalf s .chi i)

/-- `LINE[r]` (R31). -/
def lineElem (s : State) (r : Nat) : Nat := (Memory.read s.line r).getD (freeOffset s .line r)

/-- The bit source SRC (R23, D40): LDB in family M, CAP in families C and D. -/
def srcByte (s : State) : Family → Nat → Byte
  | .m => ldbByte s
  | .d => capByte s
  | .c => capByte s

/-- `len(SRC)` (R23, R93). -/
def srcLen (s : State) : Family → Nat
  | .m => s.ldbLen
  | .d => s.capLen
  | .c => s.capLen

/-- The unpack source U (D40, R228): DMX in families M and C, CAP in family D. -/
def unpackByte (s : State) : Family → Nat → Byte
  | .d => capByte s
  | .m => dmxByte s
  | .c => dmxByte s

/-- `len(U)` (R228). -/
def unpackLen (s : State) : Family → Nat
  | .d => s.capLen
  | .m => s.dmxLen
  | .c => s.dmxLen

/-- Sample `i` of the run that starts at byte `a` of the unpack source, in the form of the family (R200, R205, R228). -/
def unpackSample (s : State) (f : Family) (a i : Nat) : Nat :=
  match f with
  | .d => sample16 s.cfg.wordOrder (unpackByte s f) a i
  | .m => sample10 (unpackByte s f) a i
  | .c => sample10 (unpackByte s f) a i

/-- The bytes `n` samples take in the unpack source of a family (R210). -/
def spanBytes (f : Family) (n : Nat) : Nat :=
  match f with
  | .d => 2 * n
  | .m => packedBytes n
  | .c => packedBytes n

/-! ### The start and the end of a command -/

/-- A CMD write that starts a command (R35, R91): the code is held, DONE cleared, BUSY set. -/
def startCommand (c : Byte) (s : State) : State := setFlag .busy (clearFlag .done { s with cmd := some c })

/-- The end of every command (R36, R91): BUSY cleared, DONE set, no command in progress. -/
def endCommand (s : State) : State := setFlag .done (clearFlag .busy { s with cmd := none })

/-- `raise Refuse(F)` (R13, R240): the sticky flag is set, nothing else is written, and the command ends. -/
def refuse (f : ErrFlag) (s : State) : State := endCommand (setFlag f.flag s)

/-- A command (R91): refused by the first of its checks that applies, or run to its end. Every refusal stands before
the command's first write (R240). -/
def command (refusal : Option ErrFlag) (result : State) (s : State) : Host.Outcome State Fault Refusal :=
  match refusal with
  | some f => .next (refuse f s)
  | none => .next (endCommand result)

end Sys2Proof.Machine
end

