-- ==== Sys2Proof/Machine/Derandomizer.lean ====
section
/-! DEFINITION. The LFSR Derandomizer (DR): the command DRGEN and the mask (R170 to R175). -/
namespace Sys2Proof.Machine

/-- `DrMask(i) = DRT[i]` (R173), called for indices 4 to 1023 only. -/
def drMask (s : State) (i : Nat) : Byte := drtByte s i

/-- What DRGEN writes (R174): the whole table and the register. No flag and no VALID bit. -/
def drgenResult (s : State) : State := { s with drt := Memory.ofList drGenerate.2, lfsr := drGenerate.1 }

/-- DRGEN (R174). No check refuses it. -/
def execDrgen (s : State) : Host.Outcome State Fault Refusal := command none (drgenResult s) s

end Sys2Proof.Machine
end

