-- ==== Sys2Proof/Machine/Demultiplexer.lean ====
section
/-! DEFINITION. The Frame Demultiplexer (DX): DEMUXD, DEMUXM and the span hand-off SPANS (R180 to R191, R225, R226). -/
namespace Sys2Proof.Machine

/-- The FrameStarts in index order (R180). -/
def frameStarts (s : State) : List Nat := (List.range s.fsCount).map (fsElem s)

/-- The VALID bits the demultiplexer clears: V_DMX and everything downstream (R37, R182, R188). -/
def demuxClears : List ValidBit := [.dmx, .spn, .pix, .chi]

/-- What both demultiplexing commands write (R182, R188): DMX, BND, EMPTY and VALID. -/
def putDemux (bytes : List Byte) (boundaries : List Nat) (s : State) : State :=
  setValid .dmx (putFlag .empty bytes.isEmpty { clearValid demuxClears s with
    dmx := Memory.ofList bytes
    dmxLen := bytes.length
    bnd := Memory.ofList boundaries
    bndCount := boundaries.length })

/-! ### Direct extraction -/

/-- Span `i` of the frame at `fs`: `DX_LEN[i]` bytes from bit `fs + DX_OFF[i]` on (R182). -/
def spanOf (c : Config) (S : Nat → Bool) (fs i : Nat) : List Byte :=
  (List.range (c.dxLen.getD i 0)).map fun j => byteAt S (fs + c.dxOff.getD i 0 + 8 * j)

/-- The bytes one frame contributes: its spans in index order (R182). -/
def directFrame (c : Config) (S : Nat → Bool) (fs : Nat) : List Byte :=
  (List.range c.dxN).flatMap (spanOf c S fs)

/-- All the bytes DEMUXD appends: the frames in FS order, read through LDB (R180, R182). -/
def demuxdBytes (s : State) : List Byte :=
  (frameStarts s).flatMap (directFrame s.cfg (bits s.cfg.m (ldbByte s)))

/-- The refusals of DEMUXD (R182, R246). -/
def demuxdRefusal (s : State) : Option ErrFlag :=
  match family s with
  | none => some .errArg
  | some .m => if validBit s .fs then none else some .errSeq
  | some .d => some .errSeq
  | some .c => some .errSeq

/-- DEMUXD (R182, R183). -/
def execDemuxd (s : State) : Host.Outcome State Fault Refusal :=
  command (demuxdRefusal s) (putDemux (demuxdBytes s) [] s) s

/-! ### M-PDU extraction -/

/-- `pay[j]` of the frame at `fs` (R186): frame byte `4 + j`, derandomized. -/
def payload (s : State) (S : Nat → Bool) (fs j : Nat) : Byte := frameByte S fs (4 + j) ^^^ drMask s (4 + j)

/-- The virtual-channel identifier of a payload: the low six bits of byte 1 (R102, R187). -/
def vcidOf (pay : Nat → Byte) : Nat := (pay 1 &&& 0x3F#8).toNat

/-- The spare field of a payload (R103, R187). -/
def spareOf (pay : Nat → Byte) : Nat := (pay 8 >>> 3).toNat

/-- The first-header pointer of a payload (R103, R187). -/
def fhpOf (pay : Nat → Byte) : Nat := ((pay 8 &&& 0x07#8).toNat <<< 8) ||| (pay 9).toNat

/-- The M-PDU data zone: payload bytes 10 to 891 (R104, R187). -/
def dataZone (pay : Nat → Byte) : List Byte := (List.range 882).map fun t => pay (10 + t)

/-- What DEMUXM has appended so far. -/
structure MpduOut where
  bytes : List Byte
  boundaries : List Nat
  deriving DecidableEq, Repr

/-- One frame of DEMUXM (R187, R189, R190): dropped unless its VCID is the selected one; the boundary is recorded
on the spare field alone, before the bytes are appended. -/
def mpduFrame (vcidSel : Nat) (pay : Nat → Byte) (o : MpduOut) : MpduOut :=
  if vcidOf pay = vcidSel then
    { bytes := o.bytes ++ dataZone pay
      boundaries := if spareOf pay = 0 then o.boundaries ++ [o.bytes.length + fhpOf pay] else o.boundaries }
  else o

/-- The frames of DEMUXM in order (R180, R188). -/
def mpduFrames (vcidSel : Nat) : List (Nat → Byte) → MpduOut → MpduOut
  | [], o => o
  | pay :: rest, o => mpduFrames vcidSel rest (mpduFrame vcidSel pay o)

/-- All that DEMUXM appends, read through CAP (R188). -/
def demuxmOut (s : State) : MpduOut :=
  mpduFrames s.cfg.vcidSel ((frameStarts s).map (payload s (bits s.cfg.c (capByte s)))) { bytes := [], boundaries := [] }

/-- The refusals of DEMUXM (R188, R246). -/
def demuxmRefusal (s : State) : Option ErrFlag :=
  match family s with
  | none => some .errArg
  | some .c => if validBit s .fs then none else some .errSeq
  | some .d => some .errSeq
  | some .m => some .errSeq

/-- DEMUXM (R188). -/
def execDemuxm (s : State) : Host.Outcome State Fault Refusal :=
  command (demuxmRefusal s) (putDemux (demuxmOut s).bytes (demuxmOut s).boundaries s) s

/-! ### Span hand-off -/

/-- The pair of adjacent boundaries `i` and `i + 1` as a span, if it is kept (R226): its length, a mathematical
integer, is positive and the span lies inside DMX. -/
def spanAt (s : State) (i : Nat) : Option (Nat × Nat) :=
  let base := bndElem s i
  let len : Int := (bndElem s (i + 1) : Int) - (base : Int)
  if len ≤ 0 then none
  else if (s.dmxLen : Int) < (base : Int) + len then none
  else some (base, len.toNat)

/-- The adjacent pairs, `i` in `0..BND_COUNT-2` (R226); none when there are fewer than two boundaries. -/
def spanCandidates (s : State) : List (Option (Nat × Nat)) := (List.range (s.bndCount - 1)).map (spanAt s)

/-- The refusals of SPANS (R226, R246). -/
def spansRefusal (s : State) : Option ErrFlag :=
  match family s with
  | none => some .errArg
  | some .c => if validBit s .dmx then none else some .errSeq
  | some .d => some .errSeq
  | some .m => some .errSeq

/-- What SPANS writes (R226): SPN, SPN_COUNT, SKIP and VALID. -/
def spansResult (s : State) : State :=
  let kept := (spanCandidates s).filterMap id
  setValid .spn (putFlag .skip ((spanCandidates s).any (·.isNone)) { clearValid [.spn] s with
    spn := Memory.ofList kept
    spnCount := kept.length })

/-- SPANS (R226). -/
def execSpans (s : State) : Host.Outcome State Fault Refusal := command (spansRefusal s) (spansResult s) s

end Sys2Proof.Machine
end

