-- ==== Sys2Proof/Machine/LineDecoder.lean ====
section
/-! DEFINITION. The Manchester Line Decoder (LD): the command LDEC (R130 to R134). -/
namespace Sys2Proof.Machine

/-- The refusals of LDEC (R133, R246): the reserved family, then a family other than M. -/
def ldecRefusal (s : State) : Option ErrFlag :=
  match family s with
  | none => some .errArg
  | some .m => none
  | some .d => some .errSeq
  | some .c => some .errSeq

/-- The decoded bytes: one for each pair `(CAP[2k], CAP[2k+1])`, `k < CAP_LEN div 2` (R64, R133). -/
def ldecBytes (s : State) : List Byte :=
  (List.range (s.capLen / 2)).map fun k => ldPair s.cfg.ldTable (capByte s (2 * k)) (capByte s (2 * k + 1))

/-- What LDEC writes (R133): LDB, LDB_LEN, and VALID with only V_LDB set. -/
def ldecResult (s : State) : State :=
  setValid .ldb { clearValid ValidBit.all s with
    ldb := Memory.ofList (ldecBytes s)
    ldbLen := s.capLen / 2 }

/-- LDEC (R133). -/
def execLdec (s : State) : Host.Outcome State Fault Refusal := command (ldecRefusal s) (ldecResult s) s

end Sys2Proof.Machine
end

