-- ==== Sys2Proof/Machine/Synchronizer.lean ====
section
/-! DEFINITION. The Bit-Stream Synchronizer (SY): the lock-state machine, the pass and the command SYNC (R140 to R156). -/
namespace Sys2Proof.Machine

/-- `Thr(st)` (R143). -/
def threshold (k : FamilyConsts) : LockState → Nat
  | .unlocked => k.t0
  | .softLock => k.t1
  | .resync => k.t2
  | .hardLock => k.t3

/-- `Step(st)` (R144). -/
def scanStep (k : FamilyConsts) : LockState → Nat
  | .unlocked => k.unit
  | .softLock => k.strideBits
  | .resync => k.unit
  | .hardLock => k.strideBits

/-- `SyStep` in UNLOCKED (R145): the next FrameLock for an accepted or rejected candidate. -/
def syUnlocked (k : FamilyConsts) (accept : Bool) : FrameLock :=
  if accept && k.locking then { st := .softLock, good := 0, bad := 0, streak := false }
  else { st := .unlocked, good := 0, bad := 0, streak := false }

/-- `SyStep` in SOFT_LOCK (R146). -/
def sySoftLock (k : FamilyConsts) (L : FrameLock) (accept : Bool) : FrameLock :=
  if accept then
    if L.good + 1 = k.nGood then { st := .hardLock, good := 0, bad := 0, streak := true }
    else { st := .softLock, good := L.good + 1, bad := 0, streak := true }
  else if L.streak = true ∧ L.bad + 1 = k.nSlip then { st := .resync, good := 0, bad := 0, streak := false }
  else if L.streak = false ∧ L.bad + 1 = k.nBad then { st := .unlocked, good := 0, bad := 0, streak := false }
  else { st := .softLock, good := 0, bad := L.bad + 1, streak := L.streak }

/-- `SyStep` in RESYNC (R147). -/
def syResync (k : FamilyConsts) (L : FrameLock) (accept : Bool) : FrameLock :=
  if accept then { st := .softLock, good := 0, bad := 0, streak := false }
  else if L.bad + 1 = k.resyncBudget then { st := .unlocked, good := 0, bad := 0, streak := false }
  else { st := .resync, good := 0, bad := L.bad + 1, streak := false }

/-- `SyStep` in HARD_LOCK (R148). -/
def syHardLock (accept : Bool) : FrameLock :=
  if accept then { st := .hardLock, good := 0, bad := 0, streak := true }
  else { st := .softLock, good := 0, bad := 0, streak := true }

/-- Whether a candidate of distance `d` is accepted in a state: `d <= Thr(st)` (R143). -/
def accepted (k : FamilyConsts) (L : FrameLock) (d : Nat) : Bool := decide (d ≤ threshold k L.st)

/-- `SyStep(L, d)` (R145 to R149): the next FrameLock. -/
def syStep (k : FamilyConsts) (L : FrameLock) (d : Nat) : FrameLock :=
  match L.st with
  | .unlocked => syUnlocked k (accepted k L d)
  | .softLock => sySoftLock k L (accepted k L d)
  | .resync => syResync k L (accepted k L d)
  | .hardLock => syHardLock (accepted k L d)

/-- What a pass leaves: the FrameStarts in the order found, the last FrameLock and the last cursor. -/
structure PassResult where
  found : List Nat
  lock : FrameLock
  pos : Nat
  deriving DecidableEq, Repr

/-- Whether the candidate at `pos` is examined: the whole frame lies inside the BitSequence (R150). -/
def admitted (k : FamilyConsts) (n pos : Nat) : Bool := decide (pos + max k.w k.strideBits ≤ n)

/-- The loop of SYNC (R152, R151) over a distance function, at most `fuel` candidates. -/
def syncLoop (k : FamilyConsts) (dist : Nat → Nat) (n : Nat) : Nat → Nat → FrameLock → PassResult
  | 0, pos, L => { found := [], lock := L, pos := pos }
  | fuel + 1, pos, L =>
    if admitted k n pos then
      let L' := syStep k L (dist pos)
      let rest := syncLoop k dist n fuel (pos + scanStep k L'.st) L'
      if accepted k L (dist pos) then { rest with found := pos :: rest.found } else rest
    else { found := [], lock := L, pos := pos }

/-- A whole pass over `n` bits: `n + 1` candidates are more than any pass examines (R153, R268). -/
def syncPass (k : FamilyConsts) (dist : Nat → Nat) (n : Nat) : PassResult :=
  syncLoop k dist n (n + 1) 0 FrameLock.initial

/-- The distance of the candidate at `p` of SRC in a family (R141; R142 in family D). -/
def sourceDistance (s : State) (f : Family) (p : Nat) : Nat :=
  match f with
  | .d => hammingD s.cfg.wordOrder s.cfg.d (srcByte s .d) p
  | .m => hamming s.cfg.m (bits s.cfg.m (srcByte s .m)) p
  | .c => hamming s.cfg.c (bits s.cfg.c (srcByte s .c)) p

/-- The pass SYNC makes in a family: over the `N = 8 * len(SRC)` bits of SRC (R23, R152). -/
def sourcePass (s : State) (f : Family) : PassResult :=
  syncPass (s.cfg.family f) (sourceDistance s f) (8 * srcLen s f)

/-- The refusals of SYNC (R152, R246). -/
def syncRefusal (s : State) : Option ErrFlag :=
  match family s with
  | none => some .errArg
  | some .m => if validBit s .ldb then none else some .errSeq
  | some .d => none
  | some .c => none

/-- The VALID bits SYNC clears: V_FS and what is downstream of it in the family (R37, R152). -/
def syncClears : Family → List ValidBit
  | .d => [.fs, .dmx, .spn]
  | .m => [.fs, .dmx, .spn, .pix, .chi]
  | .c => [.fs, .dmx, .spn, .pix, .chi]

/-- What SYNC writes in a family (R152): FS, FS_COUNT, the FrameLock, the cursor, EMPTY and VALID. -/
def syncResultIn (f : Family) (s : State) : State :=
  let r := sourcePass s f
  setValid .fs (putFlag .empty r.found.isEmpty { clearValid (syncClears f) s with
    fs := Memory.ofList r.found
    fsCount := r.found.length
    lock := r.lock
    pos := r.pos })

/-- What SYNC writes in the selected family. -/
def syncResult (s : State) : State :=
  match family s with
  | some f => syncResultIn f s
  | none => s

/-- SYNC (R152). -/
def execSync (s : State) : Host.Outcome State Fault Refusal := command (syncRefusal s) (syncResult s) s

end Sys2Proof.Machine
end

