-- ==== Sys2Proof/Machine/System.lean ====
section
/-! DEFINITION. The system commands NOP and RESET (R220, R221). -/
namespace Sys2Proof.Machine

/-- NOP (R220): only the start rule's effect on BUSY and DONE. No check refuses it. -/
def execNop (s : State) : Host.Outcome State Fault Refusal := command none s s

/-- The state RESET leaves before it ends (R221, R42): the table of R42, with contents that are unspecified anew. The
family constants and the host's program are not the block's state. -/
def resetResult (s : State) : State :=
  { State.resetWith s.cfg with host := s.host, era := s.era + 1 }

/-- RESET (R221): all state to its reset value, STATUS to DONE only. No check refuses it. -/
def execReset (s : State) : Host.Outcome State Fault Refusal := command none (resetResult s) s

end Sys2Proof.Machine
end

