-- ==== Sys2Proof/Machine/Unpacker.lean ====
section
/-! DEFINITION. The Sample Unpacker (UP): UNPK10, UNPK16, CHSEL and DECCH (R200 to R210, R227, R228). -/
namespace Sys2Proof.Machine

/-- The scaled samples of a run: `n` of them from byte `a` of the unpack source (R202, R205). -/
def unpackRun (s : State) (f : Family) (a n : Nat) : List Half :=
  (List.range n).map fun i => scale (s.cfg.family f).mult (unpackSample s f a i)

/-- What both unpacking commands write (R202, R205): PIX, PIX_LEN and V_PIX. -/
def putPix (samples : List Half) (s : State) : State :=
  setValid .pix { clearValid [.pix] s with
    pix := Memory.ofList samples
    pixLen := samples.length }

/-- Whether the span of the ARG registers leaves the unpack source (R210). -/
def spanLeaves (s : State) (f : Family) : Bool :=
  decide (unpackLen s f < s.argBase + spanBytes f s.argCount)

/-- The refusals of UNPK10 (R202, R246). -/
def unpk10Refusal (s : State) : Option ErrFlag :=
  match family s with
  | none => some .errArg
  | some .d => some .errSeq
  | some f => if validBit s .dmx then (if spanLeaves s f then some .errArg else none) else some .errSeq

/-- What UNPK10 writes (R202). -/
def unpk10Result (s : State) : State :=
  match family s with
  | some f => putPix (unpackRun s f s.argBase s.argCount) s
  | none => s

/-- UNPK10 (R202). -/
def execUnpk10 (s : State) : Host.Outcome State Fault Refusal := command (unpk10Refusal s) (unpk10Result s) s

/-- The refusals of UNPK16 (R205, R246). -/
def unpk16Refusal (s : State) : Option ErrFlag :=
  match family s with
  | none => some .errArg
  | some .d => if spanLeaves s .d then some .errArg else none
  | some .m => some .errSeq
  | some .c => some .errSeq

/-- What UNPK16 writes (R205). -/
def unpk16Result (s : State) : State := putPix (unpackRun s .d s.argBase s.argCount) s

/-- UNPK16 (R205). -/
def execUnpk16 (s : State) : Host.Outcome State Fault Refusal := command (unpk16Refusal s) (unpk16Result s) s

/-- Whether CONFIG.CHANNEL is outside 1 to NCH (R209, R228, R243). -/
def channelIllegal (s : State) (f : Family) : Bool :=
  decide (channel s < 1) || decide ((s.cfg.family f).nch < channel s)

/-- The refusals of CHSEL (R209, R246). -/
def chselRefusal (s : State) : Option ErrFlag :=
  match family s with
  | none => some .errArg
  | some f =>
    if !validBit s .pix then some .errSeq
    else if channelIllegal s f then some .errArg
    else if s.pixLen ≠ (s.cfg.family f).nch * (s.cfg.family f).width then some .errArg
    else if s.chiRows < s.argRow then some .errArg
    else none

/-- The row CHSEL copies: the pixels of the selected channel (R208, R209). -/
def chselRow (s : State) (f : Family) : List Half :=
  (List.range (s.cfg.family f).width).map fun p => pixElem s (chanIndex (s.cfg.family f).nch (channel s) p)

/-- What CHSEL writes in a family (R209): the row, CHI_ROWS when the row is the next one, V_CHI cleared. -/
def chselResultIn (f : Family) (s : State) : State :=
  { clearValid [.chi] s with
    chi := Memory.writeList s.chi (s.argRow * (s.cfg.family f).width) (chselRow s f)
    chiRows := if s.argRow = s.chiRows then s.chiRows + 1 else s.chiRows }

/-- What CHSEL writes in the selected family. -/
def chselResult (s : State) : State :=
  match family s with
  | some f => chselResultIn f s
  | none => s

/-- CHSEL (R209). -/
def execChsel (s : State) : Host.Outcome State Fault Refusal := command (chselRefusal s) (chselResult s) s

/-- `LB` (R228): the bytes of one scan line. -/
def lineBytes (s : State) (f : Family) : Nat := spanBytes f ((s.cfg.family f).nch * (s.cfg.family f).width)

/-- The refusals of DECCH (R228, R246); every line is checked before any write. -/
def decchRefusal (s : State) : Option ErrFlag :=
  match family s with
  | none => some .errArg
  | some f =>
    if decide (f ≠ .d) && !validBit s .dmx then some .errSeq
    else if channelIllegal s f then some .errArg
    else if (List.range s.lineCount).any (fun r => decide (unpackLen s f < lineElem s r + lineBytes s f)) then
      some .errArg
    else none

/-- Row `r` of the image DECCH builds: the selected channel of the scan line at `LINE[r]` (R228). -/
def decchRow (s : State) (f : Family) (r : Nat) : List Half :=
  (List.range (s.cfg.family f).width).map fun p =>
    scale (s.cfg.family f).mult (unpackSample s f (lineElem s r) (chanIndex (s.cfg.family f).nch (channel s) p))

/-- What DECCH writes in a family (R228): CHI, CHI_ROWS, EMPTY and V_CHI. -/
def decchResultIn (f : Family) (s : State) : State :=
  setValid .chi (putFlag .empty (decide (s.lineCount = 0)) { clearValid [.chi] s with
    chi := Memory.ofList ((List.range s.lineCount).flatMap (decchRow s f))
    chiRows := s.lineCount })

/-- What DECCH writes in the selected family. -/
def decchResult (s : State) : State :=
  match family s with
  | some f => decchResultIn f s
  | none => s

/-- DECCH (R228). -/
def execDecch (s : State) : Host.Outcome State Fault Refusal := command (decchRefusal s) (decchResult s) s

end Sys2Proof.Machine
end

