-- ==== Sys2Proof/Machine/Dispatch.lean ====
section
/-! DEFINITION. The meaning of every command: from the state at its start to the state at DONE (R91, R268). -/
namespace Sys2Proof.Machine

def exec (i : Instr) (s : State) : Host.Outcome State Fault Refusal :=
  match i with
  | .nop => Sys2Proof.Machine.execNop s
  | .reset => Sys2Proof.Machine.execReset s
  | .drgen => Sys2Proof.Machine.execDrgen s
  | .ldec => Sys2Proof.Machine.execLdec s
  | .sync => Sys2Proof.Machine.execSync s
  | .demuxd => Sys2Proof.Machine.execDemuxd s
  | .demuxm => Sys2Proof.Machine.execDemuxm s
  | .spans => Sys2Proof.Machine.execSpans s
  | .unpk10 => Sys2Proof.Machine.execUnpk10 s
  | .unpk16 => Sys2Proof.Machine.execUnpk16 s
  | .chsel => Sys2Proof.Machine.execChsel s
  | .decch => Sys2Proof.Machine.execDecch s

end Sys2Proof.Machine
end

