-- ==== Sys2Proof/Machine/HostAccess.lean ====
section
/-! DEFINITION. The host's side of the block: what its writes do and what its reads see (R34 to R40, R66, R68). -/
namespace Sys2Proof.Machine

/-! ### Writes -/

/-- A write of CONFIG (R34): bits 6:0 are stored, the reserved bits ignored; a change of FAMILY clears VALID (R37). -/
def writeConfig (w : Word) (s : State) : State :=
  let stored : State := { s with config := w &&& configMask }
  if familyField (w &&& configMask) = familyField s.config then stored else clearValid ValidBit.all stored

/-- A write of CONFIG.FAMILY alone (R34, R95). -/
def writeFamilyField (v : BitVec 2) (s : State) : State :=
  writeConfig ((s.config &&& ~~~(0x00000003#32)) ||| v.setWidth 32) s

/-- A write of CONFIG.PASSDIR alone (R34, R95). -/
def writePassdirField (v : BitVec 1) (s : State) : State :=
  writeConfig ((s.config &&& ~~~(0x00000004#32)) ||| (v.setWidth 32 <<< 2)) s

/-- A write of CONFIG.CHANNEL alone (R34, R95). -/
def writeChannelField (v : BitVec 4) (s : State) : State :=
  writeConfig ((s.config &&& ~~~(0x00000078#32)) ||| (v.setWidth 32 <<< 3)) s

/-- A write of CAP_LEN (R38): it clears all six VALID bits, even with the same value (R37, R265). -/
def writeCapLen (n : Nat) (s : State) : State := clearValid ValidBit.all { s with capLen := n }

/-- A write of CMD while idle (R35, R91); the register is 8 bits wide. -/
def writeCmd (v : Dword) (s : State) : Host.Outcome State Fault Refusal :=
  if v.toNat < 2 ^ 8 then .next (startCommand (v.setWidth 8) s) else .fault (.valueTooWide 0)

/-- A write of a register by its number, while idle (R34 to R39, R68). A register that R36 to R38 make host read-only
keeps its value: the host is not among those that write it, and writes of reserved bits are ignored (V4; log 11). -/
def writeRegister (number : Nat) (v : Dword) (s : State) : Host.Outcome State Fault Refusal :=
  match number with
  | 0x00 => writeCmd v s
  | 0x02 => if v.toNat < 2 ^ 32 then .next (writeConfig (v.setWidth 32) s) else .fault (.valueTooWide 0x02)
  | 0x04 => .next (writeCapLen v.toNat s)
  | 0x0A => .next { s with lineCount := v.toNat }
  | 0x0D => .next { s with argBase := v.toNat }
  | 0x0E => .next { s with argRow := v.toNat }
  | 0x0F => .next { s with argCount := v.toNat }
  | n => if n ≤ 0x0F then .next s else .fault (.noSuchRegister n)

/-! ### Accesses and waits -/

/-- An access while STATUS.BUSY = 0 (R40). A read has no effect (R66); a poll waits for DONE (R95). -/
def idleAccess (a : HostAccess) (rest : List HostAccess) (s : State) : Host.Outcome State Fault Refusal :=
  match a with
  | .writeReg number v => writeRegister number v { s with host := rest }
  | .writeFamily v => .next (writeFamilyField v { s with host := rest })
  | .writePassdir v => .next (writePassdirField v { s with host := rest })
  | .writeChannel v => .next (writeChannelField v { s with host := rest })
  | .writeCap k v => .next { s with host := rest, cap := Memory.write s.cap k v }
  | .writeLine k v => .next { s with host := rest, line := Memory.write s.line k v.toNat }
  | .readReg number => if number ≤ 0x0F then .next { s with host := rest } else .fault (.noSuchRegister number)
  | .readBuffer _ => .next { s with host := rest }
  | .poll => if flag s .done then .next { s with host := rest } else .next s
  | .awaitIdle => .next { s with host := rest }

/-- The accesses the spec gives a meaning while STATUS.BUSY = 1: a write of CMD, which is ignored (R35), and a read of
STATUS (R40). For any other there is "no move" (R40, R264, V5): the host makes it only once BUSY = 0 (R72; log 10). -/
def madeWhileBusy : HostAccess → Bool
  | .writeReg number _ => decide (number = 0x00)
  | .readReg number => decide (number = 0x01)
  | .writeFamily _ => false
  | .writePassdir _ => false
  | .writeChannel _ => false
  | .writeCap _ _ => false
  | .writeLine _ _ => false
  | .readBuffer _ => false
  | .poll => false
  | .awaitIdle => false

/-- The host's turn while STATUS.BUSY = 1: an access that may be made then has no effect; any other waits. -/
def busyAccess (a : HostAccess) (rest : List HostAccess) (s : State) : Host.Outcome State Fault Refusal :=
  if madeWhileBusy a then .next { s with host := rest } else .next s

/-- The host's next access (R40, R72). -/
def hostAccess (a : HostAccess) (rest : List HostAccess) (s : State) : Host.Outcome State Fault Refusal :=
  if flag s .busy then busyAccess a rest s else idleAccess a rest s

/-! ### Reads, which have no effect (R66) -/

/-- What the host reads of a register by its number: CMD reads 0 (R35), reserved bits read 0 (R34, R36, R37). While
BUSY = 1 only STATUS may be read (R40). -/
def hostReadRegister (s : State) (number : Nat) : Option Dword :=
  if flag s .busy = true ∧ number ≠ 0x01 then none
  else
    match number with
    | 0x00 => some 0
    | 0x01 => some ((s.status &&& statusMask).setWidth 64)
    | 0x02 => some ((s.config &&& configMask).setWidth 64)
    | 0x03 => some ((s.valid &&& validMask).setWidth 64)
    | 0x04 => some (BitVec.ofNat 64 s.capLen)
    | 0x05 => some (BitVec.ofNat 64 s.ldbLen)
    | 0x06 => some (BitVec.ofNat 64 s.fsCount)
    | 0x07 => some (BitVec.ofNat 64 s.dmxLen)
    | 0x08 => some (BitVec.ofNat 64 s.bndCount)
    | 0x09 => some (BitVec.ofNat 64 s.spnCount)
    | 0x0A => some (BitVec.ofNat 64 s.lineCount)
    | 0x0B => some (BitVec.ofNat 64 s.pixLen)
    | 0x0C => some (BitVec.ofNat 64 s.chiRows)
    | 0x0D => some (BitVec.ofNat 64 s.argBase)
    | 0x0E => some (BitVec.ofNat 64 s.argRow)
    | 0x0F => some (BitVec.ofNat 64 s.argCount)
    | _ => none

/-- What the host reads in one place: a register, or an element of a buffer. -/
inductive HostValue where
  | register (v : Dword)
  | byte (v : Byte)
  | sample (v : Half)
  | offset (v : Nat)
  | span (base len : Nat)
  deriving DecidableEq, Repr

/-- An element of a buffer as the host sees it (D37). -/
def bufferElem (s : State) : BufId → Nat → HostValue
  | .cap, k => .byte (capByte s k)
  | .ldb, k => .byte (ldbByte s k)
  | .fs, k => .offset (fsElem s k)
  | .drt, k => .byte (drtByte s k)
  | .dmx, k => .byte (dmxByte s k)
  | .bnd, k => .offset (bndElem s k)
  | .spn, k => .span (spnElem s k).1 (spnElem s k).2
  | .pix, k => .sample (pixElem s k)
  | .chi, k => .sample (chiElem s k)
  | .line, k => .offset (lineElem s k)

/-- The elements of CHI: CHI_ROWS rows of WIDTH samples of the selected family (R30); none when the reserved family is
selected, for which R8 gives no WIDTH (log 27). -/
def chiLength (s : State) : Nat :=
  match family s with
  | some f => s.chiRows * (s.cfg.family f).width
  | none => 0

/-- How many elements a buffer has (R21 to R31). -/
def bufferLength (s : State) : BufId → Nat
  | .cap => s.capLen
  | .ldb => s.ldbLen
  | .fs => s.fsCount
  | .drt => 1024
  | .dmx => s.dmxLen
  | .bnd => s.bndCount
  | .spn => s.spnCount
  | .pix => s.pixLen
  | .chi => chiLength s
  | .line => s.lineCount

/-- What the host reads of a buffer element while idle (R40, D37). -/
def hostReadElement (s : State) (b : BufId) (k : Nat) : Option HostValue :=
  if flag s .busy then none else some (bufferElem s b k)

/-- `RD <buffer>` while idle (R40, R95): its elements in order. -/
def hostReadBuffer (s : State) (b : BufId) : Option (List HostValue) :=
  if flag s .busy then none else some ((List.range (bufferLength s b)).map (bufferElem s b))

/-- What an access shows the host, if it is a read that may be made. -/
def accessReads (s : State) : HostAccess → Option (List HostValue)
  | .readReg number => (hostReadRegister s number).map fun v => [.register v]
  | .readBuffer b => hostReadBuffer s b
  | .writeReg _ _ => none
  | .writeFamily _ => none
  | .writePassdir _ => none
  | .writeChannel _ => none
  | .writeCap _ _ => none
  | .writeLine _ _ => none
  | .poll => none
  | .awaitIdle => none

end Sys2Proof.Machine
end

