-- ==== Sys2Proof/Machine/Sequencer.lean ====
section
/-! DEFINITION. The command sequencer: which agent moves next, and how the code held in CMD is run (R72, R91). -/
namespace Sys2Proof.Machine

/-- The block runs the code it holds (R91): a reserved code is refused with ERR_CMD (R94, R242), a legal one is
executed. -/
def runHeld (code : Byte) (s : State) : Host.Outcome State Fault Refusal :=
  match decodeCommand code with
  | .ok i => exec i s
  | .error _ => .next (refuse .errCmd s)

/-- The access the host makes next, and those after it. With a command in progress "the host acts only while BUSY = 0
and the block only while BUSY = 1" (R72), but for what R35 and R40 allow then: every other access waits (log 10). -/
def nextAccess (s : State) : Option (HostAccess × List HostAccess) :=
  match s.host with
  | [] => none
  | a :: rest => if s.cmd.isSome && !madeWhileBusy a then none else some (a, rest)

/-- One move (R72): the host's next access; where it makes none, the command in progress runs to its end; with neither,
the block does nothing (R260). -/
def move (s : State) : Host.Outcome State Fault Refusal :=
  match nextAccess s with
  | some (a, rest) => hostAccess a rest s
  | none =>
    match s.cmd with
    | some code => runHeld code s
    | none => .next s

/-- What the next move shows the host: the value of a read that it makes (R66, R95). -/
def observed (s : State) : Option (List HostValue) :=
  match nextAccess s with
  | some (a, _) => accessReads s a
  | none => none

/-- A move of a machine that is one: a record that breaks a constraint of R8 or R9 is refused (R9, V9). -/
def admittedMove (s : State) : Host.Outcome State Fault Refusal :=
  if s.cfg.wf then move s else .refused .notAConfiguration

/-- The state in which the host has written a code to CMD and reads STATUS until DONE = 1 (R91, R95). -/
def holdCode (s : State) (code : Byte) : State :=
  { startCommand code s with host := .poll :: s.host }

end Sys2Proof.Machine
end

