-- ==== Sys2Proof/Machine/Step.lean ====
section
/-! DEFINITION. One step of the machine, and the placing of an instruction where the next step takes it. -/
namespace Sys2Proof.Machine

/-- One step (Machine/Sequencer.lean). -/
def step (s : State) : Host.Outcome State Fault Refusal := admittedMove s

/-- The instruction's byte placed in CMD as a host write leaves it, so that the next step runs it (log 14). -/
def State.withFetchWord (s : State) (_nbits w : Nat) : State := holdCode s (BitVec.ofNat 8 w)

end Sys2Proof.Machine
end

