-- ==== Sys2Proof/Machine/HostProgram.lean ====
section
/-! DEFINITION. Host programs in the spec's notation (R95), what they read, and the pseudo-commands (R96, R230). -/
namespace Sys2Proof.Machine

/-- A statement of R95. -/
inductive Statement where
  /-- `WR <register>, <value>`. -/
  | wr (number : Nat) (value : Dword)
  /-- `WR CONFIG.FAMILY, <value>`. -/
  | wrFamily (value : BitVec 2)
  /-- `WR CONFIG.PASSDIR, <value>`. -/
  | wrPassdir (value : BitVec 1)
  /-- `WR CONFIG.CHANNEL, <value>`. -/
  | wrChannel (value : BitVec 4)
  /-- `LOAD CAP, <byte list>`: the buffer from index 0, then its length register. -/
  | loadCap (bytes : List Byte)
  /-- `LOAD LINE, <offsets>`: the buffer from index 0, then its length register. -/
  | loadLine (offsets : List Dword)
  /-- `<MNEMONIC>`: the code written to CMD, then STATUS read until DONE = 1. -/
  | run (i : Instr)
  /-- `RD <register>`, the register by its number. -/
  | rdRegister (number : Nat)
  /-- `RD <buffer>`. -/
  | rdBuffer (b : BufId)
  deriving DecidableEq, Repr

/-- `writeCap` of consecutive bytes. -/
def capWrites : Nat → List Byte → List HostAccess
  | _, [] => []
  | k, v :: vs => .writeCap k v :: capWrites (k + 1) vs

/-- `writeLine` of consecutive elements. -/
def lineWrites : Nat → List Dword → List HostAccess
  | _, [] => []
  | k, v :: vs => .writeLine k v :: lineWrites (k + 1) vs

/-- The accesses of a statement, once the block is idle (R95). -/
def Statement.idleAccesses : Statement → List HostAccess
  | .wr n v => [.writeReg n v]
  | .wrFamily v => [.writeFamily v]
  | .wrPassdir v => [.writePassdir v]
  | .wrChannel v => [.writeChannel v]
  | .loadCap bytes => capWrites 0 bytes ++ [.writeReg 0x04 (BitVec.ofNat 64 bytes.length)]
  | .loadLine offsets => lineWrites 0 offsets ++ [.writeReg 0x0A (BitVec.ofNat 64 offsets.length)]
  | .run i => (encode i).map (fun code => .writeReg 0x00 (code.setWidth 64)) ++ [.poll]
  | .rdRegister n => [.readReg n]
  | .rdBuffer b => [.readBuffer b]

/-- The accesses a statement stands for (R95). Each is made while idle (R40): the host waits first for the end of a
command that an earlier statement started, a `WR CMD` among them. -/
def Statement.accesses (p : Statement) : List HostAccess := .awaitIdle :: p.idleAccesses

/-- A host program placed behind the accesses already pending. -/
def State.withProgram (s : State) (p : List Statement) : State :=
  { s with host := s.host ++ p.flatMap Statement.accesses }

/-- What the host reads in the next `n` steps, one list for each read, in order. -/
def observations : Nat → State → List (List HostValue)
  | 0, _ => []
  | n + 1, s =>
    (observed s).toList ++
      match admittedMove s with
      | .next t => observations n t
      | .fault _ => []
      | .refused _ => []

/-- The expansion of `RUN` (R96), the source's `process()`. -/
def runExpansion : Family → List Instr
  | .m => [.ldec, .sync, .demuxd]
  | .c => [.sync, .demuxm, .spans]
  | .d => [.sync]

/-- Which flag a command's checks raise in a state, if any (R243, R244, R246). -/
def refusalOf : Instr → State → Option ErrFlag
  | .nop, _ => none
  | .reset, _ => none
  | .drgen, _ => none
  | .ldec, s => ldecRefusal s
  | .sync, s => syncRefusal s
  | .demuxd, s => demuxdRefusal s
  | .demuxm, s => demuxmRefusal s
  | .spans, s => spansRefusal s
  | .unpk10, s => unpk10Refusal s
  | .unpk16, s => unpk16Refusal s
  | .chsel, s => chselRefusal s
  | .decch, s => decchRefusal s

/-- What a command writes when its checks pass. -/
def resultOf : Instr → State → State
  | .nop, s => s
  | .reset, s => resetResult s
  | .drgen, s => drgenResult s
  | .ldec, s => ldecResult s
  | .sync, s => syncResult s
  | .demuxd, s => putDemux (demuxdBytes s) [] s
  | .demuxm, s => putDemux (demuxmOut s).bytes (demuxmOut s).boundaries s
  | .spans, s => spansResult s
  | .unpk10, s => unpk10Result s
  | .unpk16, s => unpk16Result s
  | .chsel, s => chselResult s
  | .decch, s => decchResult s

/-- The commands of an expansion, one after another; the host stops at the first that sets an ERR flag (R96). -/
def runUntilRefused : List Instr → State → Host.Outcome State Fault Refusal
  | [], s => .next s
  | i :: rest, s =>
    match exec i s with
    | .next t => if (refusalOf i s).isSome then .next t else runUntilRefused rest t
    | .fault r => .fault r
    | .refused r => .refused r

/-- `RUN` (R96): the expansion of the selected family. With the reserved family there is none, and no command runs. -/
def pseudoRun (s : State) : Host.Outcome State Fault Refusal :=
  match family s with
  | some f => runUntilRefused (runExpansion f) s
  | none => .next s

/-- `FRAMECOUNT` (R96, R231): `RD FS_COUNT`. -/
def pseudoFrameCount : List Statement := [.rdRegister 0x06]

/-- `DECODECHANNEL c` (R96): `WR CONFIG.CHANNEL, c`, then `DECCH`, then `RD CHI`. -/
def pseudoDecodeChannel (c : BitVec 4) : List Statement := [.wrChannel c, .run .decch, .rdBuffer .chi]

end Sys2Proof.Machine
end

