-- ==== Sys2Proof/Safety.lean ====
section
/-! DEFINITION. The terms claims use: what a command leaves unchanged, what a sound state is, and the spec's own words
(tables, counts, the while loop of SYNC) restated apart from the functions that compute them. -/
namespace Sys2Proof.Machine

/-! ### Ends and frames -/

/-- A command has ended: BUSY = 0, DONE = 1, no command in progress (R36, R91). -/
def Ended (t : State) : Prop := t.cmd = none ∧ flag t .busy = false ∧ flag t .done = true

/-- STATUS is unchanged but for the named flags. -/
def FlagsKeptBut (but : List StatusFlag) (s t : State) : Prop :=
  (∀ f, f ∉ but → flag t f = flag s f) ∧ t.status >>> 7 = s.status >>> 7

/-- VALID is unchanged but for the named bits. -/
def ValidKeptBut (but : List ValidBit) (s t : State) : Prop :=
  (∀ v, v ∉ but → validBit t v = validBit s v) ∧ t.valid >>> 6 = s.valid >>> 6

/-- The parts of the state besides CMD, STATUS and VALID. -/
inductive Part where
  /-- The model's own fields. -/
  | model
  /-- CONFIG. -/
  | config
  /-- CAP and CAP_LEN. -/
  | cap
  /-- LINE and LINE_COUNT. -/
  | line
  /-- The argument registers. -/
  | args
  /-- LDB and LDB_LEN. -/
  | ldb
  /-- FS and FS_COUNT. -/
  | fs
  /-- DRT and `lfsr`. -/
  | drt
  /-- DMX and DMX_LEN. -/
  | dmx
  /-- BND and BND_COUNT. -/
  | bnd
  /-- SPN and SPN_COUNT. -/
  | spn
  /-- PIX and PIX_LEN. -/
  | pix
  /-- CHI and CHI_ROWS. -/
  | chi
  /-- `st`, `good`, `bad`, `streak` and `pos`. -/
  | lock
  deriving DecidableEq, Repr

/-- A part is unchanged: its registers, and every element of its buffer as it is read. -/
def PartKept : Part → State → State → Prop
  | .model, s, t => t.cfg = s.cfg ∧ t.host = s.host ∧ t.era = s.era
  | .config, s, t => t.config = s.config
  | .cap, s, t => t.capLen = s.capLen ∧ ∀ k, capByte t k = capByte s k
  | .line, s, t => t.lineCount = s.lineCount ∧ ∀ k, lineElem t k = lineElem s k
  | .args, s, t => t.argBase = s.argBase ∧ t.argCount = s.argCount ∧ t.argRow = s.argRow
  | .ldb, s, t => t.ldbLen = s.ldbLen ∧ ∀ k, ldbByte t k = ldbByte s k
  | .fs, s, t => t.fsCount = s.fsCount ∧ ∀ k, fsElem t k = fsElem s k
  | .drt, s, t => t.lfsr = s.lfsr ∧ ∀ k, drtByte t k = drtByte s k
  | .dmx, s, t => t.dmxLen = s.dmxLen ∧ ∀ k, dmxByte t k = dmxByte s k
  | .bnd, s, t => t.bndCount = s.bndCount ∧ ∀ k, bndElem t k = bndElem s k
  | .spn, s, t => t.spnCount = s.spnCount ∧ ∀ k, spnElem t k = spnElem s k
  | .pix, s, t => t.pixLen = s.pixLen ∧ ∀ k, pixElem t k = pixElem s k
  | .chi, s, t => t.chiRows = s.chiRows ∧ ∀ k, chiElem t k = chiElem s k
  | .lock, s, t => t.lock = s.lock ∧ t.pos = s.pos

/-- Every part but the named ones is unchanged. -/
def KeptBut (but : List Part) (s t : State) : Prop := ∀ p, p ∉ but → PartKept p s t

/-! ### Sound states -/

/-- Every buffer is in canonical form. -/
def memoryWf (s : State) : Bool :=
  Memory.wf s.cap && Memory.wf s.ldb && Memory.wf s.fs && Memory.wf s.drt && Memory.wf s.dmx && Memory.wf s.bnd &&
    Memory.wf s.spn && Memory.wf s.pix && Memory.wf s.chi && Memory.wf s.line

/-- Entry `i` of the derandomization table as R172 gives it. -/
def tableEntry (i : Nat) : Byte := if i < 4 then 0x00#8 else drByte (i - 4)

/-- What holds of the machine between any two steps. -/
structure Sound (s : State) : Prop where
  /-- The buffers keep their canonical form. -/
  memory : memoryWf s = true
  /-- Reserved bits read 0 (R34, R36, R37). -/
  reserved : s.config >>> 7 = 0 ∧ s.status >>> 7 = 0 ∧ s.valid >>> 6 = 0
  /-- DRT always holds the same bytes and the register is back at its seed (R25, R172, R174). -/
  table : (∀ i, i < 1024 → Memory.read s.drt i = some (tableEntry i)) ∧ s.lfsr = lfsrSeed
  /-- BUSY says whether a command is in progress (R36). -/
  busy : flag s .busy = s.cmd.isSome
  /-- `good` takes the values 0 to 4 (R32). -/
  good : s.lock.good ≤ 4
  /-- Every element below a product's length register has been written (R42, R67). -/
  written : (∀ k, k < s.ldbLen → (Memory.read s.ldb k).isSome) ∧ (∀ k, k < s.fsCount → (Memory.read s.fs k).isSome) ∧
    (∀ k, k < s.dmxLen → (Memory.read s.dmx k).isSome) ∧ (∀ k, k < s.bndCount → (Memory.read s.bnd k).isSome) ∧
    (∀ k, k < s.spnCount → (Memory.read s.spn k).isSome) ∧ (∀ k, k < s.pixLen → (Memory.read s.pix k).isSome)

/-- While V_FS stands, every FrameStart has a whole frame behind it in the bit source, and FS is strictly ascending
(R24, R150, R153). -/
def FrameStartsWhole (s : State) : Prop :=
  validBit s .fs = true → ∀ f, family s = some f →
    ∀ k, k < s.fsCount →
      fsElem s k + max (s.cfg.family f).w (s.cfg.family f).strideBits ≤ 8 * srcLen s f ∧
      ∀ j, j < k → fsElem s j < fsElem s k

/-- The ranges of the counters in each lock state (R146, R147, R149). -/
def LockInRange (k : FamilyConsts) (L : FrameLock) : Prop :=
  match L.st with
  | .unlocked => L.good = 0 ∧ L.bad = 0 ∧ L.streak = false
  | .softLock => L.good + 1 ≤ k.nGood ∧ L.bad + 1 ≤ (if L.streak then k.nSlip else k.nBad)
  | .resync => L.good = 0 ∧ L.bad + 1 ≤ k.resyncBudget ∧ L.streak = false
  | .hardLock => L.good = 0 ∧ L.bad = 0 ∧ L.streak = true

/-! ### R9 as propositions -/

/-- The constraints of R9. -/
def KeepsR9 (c : Config) : Prop :=
  (∀ k, k = c.m ∨ k = c.c → k.t0 ≤ k.t2 ∧ k.t2 ≤ k.t1 ∧ k.t1 ≤ k.t3 ∧ k.t3 ≤ k.w ∧ 1 ≤ k.resyncBudget) ∧
  (∀ f, (c.family f).w ≤ (c.family f).strideBits) ∧
  8192 ≤ c.c.strideBits ∧
  (∀ i, i < c.dxN → c.dxOff.getD i 0 + 8 * c.dxLen.getD i 0 ≤ c.m.strideBits)

/-! ### The while loop of SYNC -/

/-- The cursor and the FrameLock before candidate `n` of a pass, as R151 and R152 move them. -/
def passTrace (k : FamilyConsts) (dist : Nat → Nat) : Nat → Nat × FrameLock
  | 0 => (0, FrameLock.initial)
  | n + 1 =>
    let c := passTrace k dist n
    let L' := syStep k c.2 (dist c.1)
    (c.1 + scanStep k L'.st, L')

/-! ### Counts over frames and pairs -/

/-- The bytes of the first `i` spans of a frame (R182). -/
def spanTotal (c : Config) (i : Nat) : Nat := ((List.range i).map fun j => c.dxLen.getD j 0).sum

/-- The derandomized payload of frame `f` (R186). -/
def framePayload (s : State) (f : Nat) : Nat → Byte := payload s (bits s.cfg.c (capByte s)) (fsElem s f)

/-- Frame `f` is kept: its VCID is the selected one (R187, R189). -/
def keptFrame (s : State) (f : Nat) : Bool := decide (vcidOf (framePayload s f) = s.cfg.vcidSel)

/-- Frame `f` records a boundary (R187, R190). -/
def boundaryFrame (s : State) (f : Nat) : Bool := keptFrame s f && decide (spareOf (framePayload s f) = 0)

/-- How many of the first `n` frames are kept. -/
def keptBefore (s : State) (n : Nat) : Nat := (List.range n).countP (keptFrame s)

/-- How many of the first `n` frames record a boundary. -/
def boundariesBefore (s : State) (n : Nat) : Nat := (List.range n).countP (boundaryFrame s)

/-- The pair of boundaries `i`, `i + 1` is kept: ascending and inside DMX (R226). -/
def keptPair (s : State) (i : Nat) : Bool :=
  decide (bndElem s i < bndElem s (i + 1)) && decide (bndElem s (i + 1) ≤ s.dmxLen)

/-- How many of the first `n` pairs are kept. -/
def pairsBefore (s : State) (n : Nat) : Nat := (List.range n).countP (keptPair s)

/-! ### The refusal tables -/

/-- The families a command is legal in (R93, R244). -/
def legalIn : Instr → Family → Bool
  | .ldec, f => decide (f = .m)
  | .demuxd, f => decide (f = .m)
  | .demuxm, f => decide (f = .c)
  | .spans, f => decide (f = .c)
  | .unpk10, f => decide (f ≠ .d)
  | .unpk16, f => decide (f = .d)
  | _, _ => true

/-- The VALID bit a command requires in a family (R244). -/
def requiredValid : Instr → Family → Option ValidBit
  | .sync, .m => some .ldb
  | .demuxd, _ => some .fs
  | .demuxm, _ => some .fs
  | .spans, _ => some .dmx
  | .unpk10, _ => some .dmx
  | .chsel, _ => some .pix
  | .decch, .m => some .dmx
  | .decch, .c => some .dmx
  | _, _ => none

/-- The commands that use no configuration: legal whatever FAMILY holds (R93, R243). -/
def anyFamily : Instr → Bool
  | .nop => true
  | .reset => true
  | .drgen => true
  | _ => false

/-- An argument, a length or a LINE element that is out of range for a command (R243, R210, R228). -/
def ArgumentBad (i : Instr) (f : Family) (s : State) : Prop :=
  (i = .unpk10 ∧ s.dmxLen < s.argBase + (10 * s.argCount + 7) / 8) ∨
  (i = .unpk16 ∧ s.capLen < s.argBase + 2 * s.argCount) ∨
  (i = .chsel ∧ (s.pixLen ≠ (s.cfg.family f).nch * (s.cfg.family f).width ∨ s.chiRows < s.argRow)) ∨
  (i = .decch ∧ ∃ r, r < s.lineCount ∧
    (if f = .d then s.capLen else s.dmxLen) <
      lineElem s r + (if f = .d then 2 * (s.cfg.d.nch * s.cfg.d.width)
        else (10 * ((s.cfg.family f).nch * (s.cfg.family f).width) + 7) / 8))

/-- A channel outside 1 to NCH where a command uses it (R243). -/
def ChannelBad (i : Instr) (f : Family) (s : State) : Prop :=
  (i = .chsel ∨ i = .decch) ∧ (channel s = 0 ∨ (s.cfg.family f).nch < channel s)

/-- A flag is the first that applies to a command in the order of R246 (points 2 to 7). -/
inductive FirstRefusal (i : Instr) (s : State) : ErrFlag → Prop where
  /-- (2) The reserved family code. -/
  | reservedFamily : anyFamily i = false → family s = none → FirstRefusal i s .errArg
  /-- (3) The command is not legal in the selected family. -/
  | wrongFamily (f : Family) : anyFamily i = false → family s = some f → legalIn i f = false → FirstRefusal i s .errSeq
  /-- (4) The required VALID bit is 0. -/
  | notValid (f : Family) (v : ValidBit) : family s = some f → legalIn i f = true → requiredValid i f = some v →
      validBit s v = false → FirstRefusal i s .errSeq
  /-- (5) to (7) The channel, the length of PIX, an argument or a LINE element. -/
  | outOfRange (f : Family) : family s = some f → legalIn i f = true →
      (∀ v, requiredValid i f = some v → validBit s v = true) → (ChannelBad i f s ∨ ArgumentBad i f s) →
      FirstRefusal i s .errArg

/-! ### The bits of the derandomizer -/

/-- Bit `n` of the LFSR output in time order (R171): bit `7 - n mod 8` of byte `n div 8`. -/
def drBit (n : Nat) : Bool := (drByte (n / 8)).getLsbD (7 - n % 8)

/-- CONFIG with PASSDIR turned over (R34). -/
def flipPassdir (s : State) : State := { s with config := s.config ^^^ 0x00000004#32 }

end Sys2Proof.Machine
end

