-- ==== Sys2Proof/Certificates/Slice0/Obligations.lean ====
section
/-! DEFINITION. The statements about the machine, from the numbered rules of spec/. -/
open Sys2Proof Sys2Proof.Machine

/-! ### The command word -/

/-- Decoding bytes gives a command and a rest exactly when the bytes are the command's word and the rest: the
decoder undoes the encoder, and reads nothing else (R90, R92). -/
def Obligations.DecodeOfEncodeIsTheCommand : Prop :=
  ∀ (i : Instr) (bytes rest : List Byte), i.wf = true →
    (decodeBytes bytes = .ok (i, rest) ↔ bytes = encode i ++ rest)

/-- A code decodes exactly when it is one of the twelve of R92, to that command; the 244 others are reserved (R94). -/
def Obligations.LegalCodesAreTheCommandMap : Prop :=
  (∀ (c : Byte) (i : Instr), decodeCommand c = .ok i ↔ (c, i) ∈ commandMap) ∧
  (∀ c : Byte, (∀ i, (c, i) ∉ commandMap) ↔ decodeCommand c = .error (.reserved c)) ∧
  commandMap.length = 12 ∧
  ((List.range 256).countP fun n => decide (∀ e ∈ commandMap, e.1 ≠ BitVec.ofNat 8 n)) = 244

/-- Words written out from R92 decode to the commands they stand for. -/
def Obligations.CommandWordsOfTheMap : Prop :=
  decodeTableWord 8 0x00 = some .nop ∧ decodeTableWord 8 0x02 = some .drgen ∧ decodeTableWord 8 0x10 = some .ldec ∧
  decodeTableWord 8 0x20 = some .sync ∧ decodeTableWord 8 0x31 = some .demuxm ∧ decodeTableWord 8 0x43 = some .decch ∧
  decodeTableWord 8 0x11 = none

/-! ### Steps: the host's access and the held command -/

/-- With a legal code held, and unless the host is about to write CMD or to read STATUS, a step is the command's
meaning, with nothing around it (R72, R91). (That a command runs in a step of its own is the model's choice, log 10.) -/
def Obligations.StepRunsTheHeldCommand : Prop :=
  ∀ (s : State) (c : Byte) (i : Instr), s.cfg.wf = true → s.cmd = some c →
    (∀ v rest, s.host ≠ .writeReg 0x00 v :: rest) → (∀ rest, s.host ≠ .readReg 0x01 :: rest) →
    decodeCommand c = .ok i → step s = exec i s

/-- The instruction that withFetchWord places is the one the next step runs (how it is placed is the model's choice,
log 14). -/
def Obligations.PlacedWordRunsNext : Prop :=
  ∀ (s : State) (w : Nat) (i : Instr), s.cfg.wf = true → decodeTableWord 8 w = some i →
    step (s.withFetchWord 8 w) = exec i (s.withFetchWord 8 w)

/-- R91, the start: a CMD write while BUSY = 0 holds the code, clears DONE and sets BUSY, and does nothing else. (That
this is a step of its own is the model's choice, log 10.) -/
def Obligations.CmdWriteStartsTheCommand : Prop :=
  ∀ (s : State) (v : Dword) (rest : List HostAccess), s.cfg.wf = true → s.cmd = none → flag s .busy = false →
    s.host = .writeReg 0x00 v :: rest → v.toNat < 256 →
    ∃ t, step s = .next t ∧ t.cmd = some (v.setWidth 8) ∧ flag t .busy = true ∧ flag t .done = false ∧
      FlagsKeptBut [.busy, .done] s t ∧ t.valid = s.valid ∧ t.host = rest ∧ t.cfg = s.cfg ∧ t.era = s.era ∧
      KeptBut [.model] s t

/-- R35: "A write while BUSY = 1 is ignored": only the host's own list moves on. (That the write is a step of its own,
before the command's, is the model's choice, log 10.) -/
def Obligations.CmdWriteWhileBusyIsIgnored : Prop :=
  ∀ (s : State) (v : Dword) (rest : List HostAccess), s.cfg.wf = true → flag s .busy = true →
    s.host = .writeReg 0x00 v :: rest → step s = .next { s with host := rest }

/-- The MODEL's choice, log 10, for an access other than a CMD write or reading STATUS while BUSY = 1. The spec says
only that a model has no move for it (R40, R264, V5) and that the host acts while BUSY = 0 (R72). In this model the
access stays pending and the step is the command's, to its end; where no command is in progress (a state no run
reaches), the step answers the same state. That no command but RESET writes what the host writes is R21, R31, R34 and
R39. -/
def Obligations.NoOtherAccessWhileBusy : Prop :=
  ∀ (s : State) (a : HostAccess) (rest : List HostAccess), s.cfg.wf = true → flag s .busy = true →
    s.host = a :: rest → (∀ v, a ≠ .writeReg 0x00 v) → a ≠ .readReg 0x01 →
    (s.cmd = none → step s = .next s) ∧
    ∀ c, s.cmd = some c → ∃ t, step s = .next t ∧ Ended t ∧ t.host = a :: rest ∧
      (c ≠ 0x01#8 → PartKept .config s t ∧ PartKept .cap s t ∧ PartKept .line s t ∧ PartKept .args s t)

/-- R242, R240: a reserved code written to CMD while idle sets ERR_CMD and ends, and changes nothing else; the same of
a reserved code that is held. (That the write and the run are two steps is the model's choice, log 10.) -/
def Obligations.ReservedCodeIsRefused : Prop :=
  (∀ (s : State) (c : Byte), s.cfg.wf = true → s.cmd = some c →
    (∀ v rest, s.host ≠ .writeReg 0x00 v :: rest) → (∀ rest, s.host ≠ .readReg 0x01 :: rest) →
    (∀ i, (c, i) ∉ commandMap) →
    ∃ t, step s = .next t ∧ Ended t ∧ flag t .errCmd = true ∧ FlagsKeptBut [.busy, .done, .errCmd] s t ∧
      t.valid = s.valid ∧ KeptBut [] s t) ∧
  (∀ (s : State) (v : Dword) (rest : List HostAccess), s.cfg.wf = true → s.cmd = none → flag s .busy = false →
    s.host = .writeReg 0x00 v :: rest → (∀ u r, rest ≠ .writeReg 0x00 u :: r) → (∀ r, rest ≠ .readReg 0x01 :: r) →
    v.toNat < 256 → (∀ i, (v.setWidth 8, i) ∉ commandMap) →
    ∃ m t, step s = .next m ∧ step m = .next t ∧ Ended t ∧ flag t .errCmd = true ∧
      FlagsKeptBut [.busy, .done, .errCmd] s t ∧ t.valid = s.valid ∧ t.host = rest ∧ t.cfg = s.cfg ∧ t.era = s.era ∧
      KeptBut [.model] s t)

/-- R34, R37: a write of CONFIG stores bits 6:0 and ignores the rest; VALID is cleared when FAMILY changes, and kept
when it does not. -/
def Obligations.ConfigWriteStoresAndGuardsFamily : Prop :=
  ∀ (s : State) (v : Dword) (rest : List HostAccess), s.cfg.wf = true → s.cmd = none → flag s .busy = false →
    s.host = .writeReg 0x02 v :: rest → v.toNat < 2 ^ 32 →
    ∃ t, step s = .next t ∧ t.config = v.setWidth 32 &&& 0x7F#32 ∧ t.status = s.status ∧ t.cmd = none ∧
      (familyField t.config = familyField s.config → t.valid = s.valid) ∧
      (familyField t.config ≠ familyField s.config → (∀ b, validBit t b = false) ∧ t.valid >>> 6 = s.valid >>> 6) ∧
      t.host = rest ∧ t.cfg = s.cfg ∧ t.era = s.era ∧ KeptBut [.model, .config] s t

/-- R34, R37, R95: an idle host write of one field of CONFIG stores that field and leaves the other two and everything
else; VALID is cleared when FAMILY changes, and kept when it does not. -/
def Obligations.ConfigFieldWriteKeepsTheOthers : Prop :=
  ∀ (s : State) (rest : List HostAccess), s.cfg.wf = true → s.cmd = none → flag s .busy = false →
    (∀ v : BitVec 2, s.host = .writeFamily v :: rest →
      ∃ t, step s = .next t ∧ familyField t.config = v ∧ passdir t = passdir s ∧ channel t = channel s ∧
        t.config >>> 7 = 0 ∧ (v = familyField s.config → t.valid = s.valid) ∧
        (v ≠ familyField s.config → (∀ b, validBit t b = false) ∧ t.valid >>> 6 = s.valid >>> 6) ∧
        t.status = s.status ∧ t.cmd = none ∧ t.host = rest ∧ t.cfg = s.cfg ∧ t.era = s.era ∧
        KeptBut [.model, .config] s t) ∧
    (∀ v : BitVec 1, s.host = .writePassdir v :: rest →
      ∃ t, step s = .next t ∧ familyField t.config = familyField s.config ∧ passdir t = v ∧ channel t = channel s ∧
        t.config >>> 7 = 0 ∧ t.valid = s.valid ∧ t.status = s.status ∧ t.cmd = none ∧ t.host = rest ∧ t.cfg = s.cfg ∧
        t.era = s.era ∧ KeptBut [.model, .config] s t) ∧
    (∀ v : BitVec 4, s.host = .writeChannel v :: rest →
      ∃ t, step s = .next t ∧ familyField t.config = familyField s.config ∧ passdir t = passdir s ∧
        channel t = v.toNat ∧ t.config >>> 7 = 0 ∧ t.valid = s.valid ∧ t.status = s.status ∧ t.cmd = none ∧
        t.host = rest ∧ t.cfg = s.cfg ∧ t.era = s.era ∧ KeptBut [.model, .config] s t)

/-- R37, R265: a write of CAP_LEN clears all six VALID bits even with the same value; a write of CAP bytes clears
none. -/
def Obligations.CapLenWriteClearsValid : Prop :=
  (∀ (s : State) (v : Dword) (rest : List HostAccess), s.cfg.wf = true → s.cmd = none → flag s .busy = false →
    s.host = .writeReg 0x04 v :: rest →
    ∃ t, step s = .next t ∧ t.capLen = v.toNat ∧ (∀ k, capByte t k = capByte s k) ∧ (∀ b, validBit t b = false) ∧
      t.valid >>> 6 = s.valid >>> 6 ∧ t.status = s.status ∧ t.cmd = none ∧
      t.host = rest ∧ t.cfg = s.cfg ∧ t.era = s.era ∧ KeptBut [.model, .cap] s t) ∧
  (∀ (s : State) (k : Nat) (v : Byte) (rest : List HostAccess), s.cfg.wf = true → s.cmd = none →
    flag s .busy = false → s.host = .writeCap k v :: rest →
    ∃ t, step s = .next t ∧ capByte t k = v ∧ (∀ j, j ≠ k → capByte t j = capByte s j) ∧ t.capLen = s.capLen ∧
      t.valid = s.valid ∧ t.status = s.status ∧ t.cmd = none ∧
      t.host = rest ∧ t.cfg = s.cfg ∧ t.era = s.era ∧ KeptBut [.model, .cap] s t)

/-- R31, R38, R39: writes of LINE, LINE_COUNT and the argument registers store the value and change nothing else. -/
def Obligations.LineAndArgumentWritesStore : Prop :=
  ∀ (s : State) (rest : List HostAccess), s.cfg.wf = true → s.cmd = none → flag s .busy = false →
    (∀ v : Dword, s.host = .writeReg 0x0A v :: rest →
      step s = .next { s with host := rest, lineCount := v.toNat }) ∧
    (∀ v : Dword, s.host = .writeReg 0x0D v :: rest → step s = .next { s with host := rest, argBase := v.toNat }) ∧
    (∀ v : Dword, s.host = .writeReg 0x0E v :: rest → step s = .next { s with host := rest, argRow := v.toNat }) ∧
    (∀ v : Dword, s.host = .writeReg 0x0F v :: rest → step s = .next { s with host := rest, argCount := v.toNat }) ∧
    (∀ (k : Nat) (v : Dword), s.host = .writeLine k v :: rest →
      ∃ t, step s = .next t ∧ lineElem t k = v.toNat ∧ (∀ j, j ≠ k → lineElem t j = lineElem s j) ∧
        t.lineCount = s.lineCount ∧ t.status = s.status ∧ t.valid = s.valid ∧ t.cmd = none ∧
        t.host = rest ∧ t.cfg = s.cfg ∧ t.era = s.era ∧ KeptBut [.model, .line] s t)

/-- R36 to R38, V4: an idle host write to a read-only register (0x01, 0x03, 0x05 to 0x09, 0x0B, 0x0C) changes
nothing but the host's own list. The MODEL's choice, log 11: an idle access to a number above 0x0F, or a write of a
value that CMD or CONFIG cannot hold, stops by name. -/
def Obligations.HostAccessesThatStoreNothing : Prop :=
  ∀ (s : State) (n : Nat) (v : Dword) (rest : List HostAccess), s.cfg.wf = true → s.cmd = none →
    flag s .busy = false →
    (s.host = .writeReg n v :: rest →
      (n ∈ [0x01, 0x03, 0x05, 0x06, 0x07, 0x08, 0x09, 0x0B, 0x0C] → step s = .next { s with host := rest }) ∧
      (0x0F < n → step s = .fault (.noSuchRegister n)) ∧
      (n = 0x00 → 256 ≤ v.toNat → step s = .fault (.valueTooWide 0x00)) ∧
      (n = 0x02 → 2 ^ 32 ≤ v.toNat → step s = .fault (.valueTooWide 0x02))) ∧
    (s.host = .readReg n :: rest → 0x0F < n → step s = .fault (.noSuchRegister n))

/-- R34 to R40, R66: STATUS may be read at any time; while BUSY = 0 every register and element reads as it is stored,
CMD as 0 and reserved bits as 0; while BUSY = 1 nothing but STATUS can be read; and a read changes nothing but the
host's own list. The MODEL's, log 27: how many elements a read of a whole buffer shows, `bufferLength` (up to the length
register, DEDUCED), and that CHI shows none under FAMILY = 3 (a DESIGN CHOICE; the spec gives that family no WIDTH).
The model's too, log 10: a STATUS read while BUSY = 1 is a step of its own, before the command's. -/
def Obligations.HostReadsSeeWhatIsStored : Prop :=
  ∀ s : State,
    hostReadRegister s 0x01 = some (BitVec.ofNat 64 (s.status.toNat % 2 ^ 7)) ∧
    (flag s .busy = false →
      hostReadRegister s 0x00 = some 0 ∧
      hostReadRegister s 0x02 = some (BitVec.ofNat 64 (s.config.toNat % 2 ^ 7)) ∧
      hostReadRegister s 0x03 = some (BitVec.ofNat 64 (s.valid.toNat % 2 ^ 6)) ∧
      hostReadRegister s 0x04 = some (BitVec.ofNat 64 s.capLen) ∧
      hostReadRegister s 0x05 = some (BitVec.ofNat 64 s.ldbLen) ∧
      hostReadRegister s 0x06 = some (BitVec.ofNat 64 s.fsCount) ∧
      hostReadRegister s 0x07 = some (BitVec.ofNat 64 s.dmxLen) ∧
      hostReadRegister s 0x08 = some (BitVec.ofNat 64 s.bndCount) ∧
      hostReadRegister s 0x09 = some (BitVec.ofNat 64 s.spnCount) ∧
      hostReadRegister s 0x0A = some (BitVec.ofNat 64 s.lineCount) ∧
      hostReadRegister s 0x0B = some (BitVec.ofNat 64 s.pixLen) ∧
      hostReadRegister s 0x0C = some (BitVec.ofNat 64 s.chiRows) ∧
      hostReadRegister s 0x0D = some (BitVec.ofNat 64 s.argBase) ∧
      hostReadRegister s 0x0E = some (BitVec.ofNat 64 s.argRow) ∧
      hostReadRegister s 0x0F = some (BitVec.ofNat 64 s.argCount) ∧
      ∀ k, hostReadElement s .cap k = some (.byte (capByte s k)) ∧
        hostReadElement s .ldb k = some (.byte (ldbByte s k)) ∧
        hostReadElement s .fs k = some (.offset (fsElem s k)) ∧
        hostReadElement s .drt k = some (.byte (drtByte s k)) ∧
        hostReadElement s .dmx k = some (.byte (dmxByte s k)) ∧
        hostReadElement s .bnd k = some (.offset (bndElem s k)) ∧
        hostReadElement s .spn k = some (.span (spnElem s k).1 (spnElem s k).2) ∧
        hostReadElement s .pix k = some (.sample (pixElem s k)) ∧
        hostReadElement s .chi k = some (.sample (chiElem s k)) ∧
        hostReadElement s .line k = some (.offset (lineElem s k))) ∧
    (flag s .busy = true → (∀ n, n ≠ 0x01 → hostReadRegister s n = none) ∧ (∀ b k, hostReadElement s b k = none) ∧
      ∀ b, hostReadBuffer s b = none) ∧
    (∀ rest, s.cfg.wf = true → s.host = .readReg 0x01 :: rest →
      observed s = some [.register (BitVec.ofNat 64 (s.status.toNat % 2 ^ 7))] ∧ step s = .next { s with host := rest }) ∧
    (s.cfg.wf = true → s.cmd = none → flag s .busy = false →
      (∀ n rest, n ≤ 0x0F → s.host = .readReg n :: rest →
        observed s = (hostReadRegister s n).map (fun v => [.register v]) ∧ step s = .next { s with host := rest }) ∧
      (∀ b rest, s.host = .readBuffer b :: rest →
        observed s = hostReadBuffer s b ∧ step s = .next { s with host := rest } ∧
        ∃ l, hostReadBuffer s b = some l ∧ l.length = bufferLength s b ∧
          ∀ k, k < bufferLength s b → l[k]? = hostReadElement s b k))

/-- R260: with no command in progress and nothing written by the host, the block does nothing. (That an idle block has
a step at all is the model's choice, log 13.) -/
def Obligations.IdleBlockDoesNothing : Prop :=
  ∀ s : State, s.cfg.wf = true → s.cmd = none → s.host = [] → step s = .next s

/-- R9: a record that breaks one of its constraints is refused. -/
def Obligations.NonConfigurationIsRefused : Prop :=
  ∀ s : State, ¬ KeepsR9 s.cfg → step s = .refused .notAConfiguration

/-! ### Reset and the system commands -/

/-- R42, R260: the state after power-on reset. (The record `cfg`, the empty host list and `era` 0 are the model's
choices, logs 2, 5 and 9, and are not stated.) -/
def Obligations.PowerOnResetValues : Prop :=
  let s := State.reset
  s.cmd = none ∧ s.status = 0x00000000#32 ∧ s.config = 0x00000000#32 ∧ s.valid = 0x00000000#32 ∧
  s.capLen = 0 ∧ s.ldbLen = 0 ∧ s.fsCount = 0 ∧ s.dmxLen = 0 ∧ s.bndCount = 0 ∧ s.spnCount = 0 ∧ s.lineCount = 0 ∧
  s.pixLen = 0 ∧ s.chiRows = 0 ∧ s.argBase = 0 ∧ s.argCount = 0 ∧ s.argRow = 0 ∧
  s.lock = { st := .unlocked, good := 0, bad := 0, streak := false } ∧ s.pos = 0 ∧ s.lfsr = 0xFF#8 ∧
  ∀ i, i < 1024 → drtByte s i = tableEntry i

/-- R221, R42: after the RESET command everything is at its reset value and STATUS is DONE only. The family
constants and what the host is about to do are not touched. RESET is the only command that clears an error flag. -/
def Obligations.ResetCommandRestoresResetValues : Prop :=
  (∀ s : State, ∃ t, exec .reset s = .next t ∧ t.cmd = none ∧ t.status = 0x00000002#32 ∧ t.config = 0x00000000#32 ∧
    t.valid = 0x00000000#32 ∧
    t.capLen = 0 ∧ t.ldbLen = 0 ∧ t.fsCount = 0 ∧ t.dmxLen = 0 ∧ t.bndCount = 0 ∧ t.spnCount = 0 ∧ t.lineCount = 0 ∧
    t.pixLen = 0 ∧ t.chiRows = 0 ∧ t.argBase = 0 ∧ t.argCount = 0 ∧ t.argRow = 0 ∧
    t.lock = { st := .unlocked, good := 0, bad := 0, streak := false } ∧ t.pos = 0 ∧ t.lfsr = 0xFF#8 ∧
    (∀ i, i < 1024 → drtByte t i = tableEntry i) ∧ t.cfg = s.cfg ∧ t.host = s.host) ∧
  (∀ (i : Instr) (s t : State) (e : ErrFlag), i ≠ .reset → exec i s = .next t → flag s e.flag = true →
    flag t e.flag = true)

/-- R220: NOP ends and changes nothing: no buffer, no other STATUS bit, no VALID bit. -/
def Obligations.NopOnlyEnds : Prop :=
  ∀ s : State, ∃ t, exec .nop s = .next t ∧ Ended t ∧ FlagsKeptBut [.busy, .done] s t ∧ t.valid = s.valid ∧
    KeptBut [] s t

/-- R174: DRGEN writes the whole table and brings the register back to its seed, from any state and in any family. -/
def Obligations.DrgenWritesTheTable : Prop :=
  ∀ s : State, ∃ t, exec .drgen s = .next t ∧ Ended t ∧
    (∀ i, i < 1024 → drtByte t i = if i < 4 then 0x00#8 else drByte (i - 4)) ∧ t.lfsr = 0xFF#8 ∧
    FlagsKeptBut [.busy, .done] s t ∧ t.valid = s.valid ∧ KeptBut [.drt] s t

/-! ### The derandomizer's sequence -/

/-- R171: the output bits obey `a[0..7] = 1`, `a[n+8] = a[n+7] ^ a[n+5] ^ a[n+3] ^ a[n]`. -/
def Obligations.DrBitsFollowTheRecurrence : Prop :=
  (∀ n, n < 8 → drBit n = true) ∧
  ∀ n, drBit (n + 8) = (drBit (n + 7) ^^ drBit (n + 5) ^^ drBit (n + 3) ^^ drBit n)

/-- R172: the generated table, its values, its period and its sum. -/
def Obligations.TableHasItsProperties : Prop :=
  (∀ i, i < 4 → drGenerate.2[i]? = some 0x00#8) ∧ (∀ k, k < 1020 → drGenerate.2[4 + k]? = some (drByte k)) ∧
  drGenerate.2.length = 1024 ∧ drByte 0 = 0xFF#8 ∧ drByte 1 = 0x48#8 ∧ drByte 1019 = 0x58#8 ∧
  (∀ n, drBit (n + 255) = drBit n) ∧ (∀ p, 0 < p → p < 255 → ∃ n, drBit (n + p) ≠ drBit n) ∧
  (∀ k, drByte (k + 255) = drByte k) ∧ lfsrAfter 8160 = 0xFF#8 ∧ (drGenerate.2.map (·.toNat)).sum = 130560

/-! ### The Bit Expander -/

/-- R61, R122, R123: bit `7 - j` of frame byte `k` is bit `fs + 8k + j` of the sequence, whatever the alignment; a
byte-aligned read with MSB order and no inversion gives the byte back, with LSB order its bits reversed, with
inversion its complement. -/
def Obligations.AlignedByteReadsBack : Prop :=
  (∀ (S : Nat → Bool) (fs k j : Nat), j < 8 → (frameByte S fs k).getLsbD (7 - j) = S (fs + 8 * k + j)) ∧
  ∀ (k : FamilyConsts) (B : Nat → Byte) (n : Nat),
    (k.bitOrder = .msb → k.invert = false → byteAt (bits k B) (8 * n) = B n) ∧
    (k.bitOrder = .lsb → k.invert = false →
      ∀ j, j < 8 → (byteAt (bits k B) (8 * n)).getLsbD j = (B n).getLsbD (7 - j)) ∧
    (k.bitOrder = .msb → k.invert = true → byteAt (bits k B) (8 * n) = ~~~(B n))

/-! ### The line decoder -/

/-- R132: with no exceptions listed, decoded bit `7 - k` is the first line bit of symbol pair `k`. -/
def Obligations.DefaultLineTable : Prop :=
  ∀ a b : Byte, ∀ k, k < 4 →
    (ldPair { exceptions := [] } a b).getLsbD (7 - k) = a.getLsbD (7 - 2 * k) ∧
    (ldPair { exceptions := [] } a b).getLsbD (3 - k) = b.getLsbD (7 - 2 * k)

/-- R133: LDEC is refused as R244 and R246 say; in family M it decodes `CAP_LEN div 2` pairs into LDB, leaves only
V_LDB set, and nothing else changes. (LDB at or beyond LDB_LEN has no specified value, R42 and V6.) -/
def Obligations.LdecDecodesEveryPair : Prop :=
  (∀ (s : State) (e : ErrFlag), FirstRefusal .ldec s e → exec .ldec s = .next (refuse e s)) ∧
  ∀ s : State, family s = some .m →
    ∃ t, exec .ldec s = .next t ∧ Ended t ∧ t.ldbLen = s.capLen / 2 ∧
      (∀ k, k < s.capLen / 2 → ldbByte t k = ldPair s.cfg.ldTable (capByte s (2 * k)) (capByte s (2 * k + 1))) ∧
      (∀ v, validBit t v = decide (v = .ldb)) ∧ t.valid >>> 6 = s.valid >>> 6 ∧
      FlagsKeptBut [.busy, .done] s t ∧ KeptBut [.ldb] s t

/-! ### The synchronizer -/

/-- R143, R144, R149, R151: the bound and the scan step of each state; the complete transition relation, with the
counts of R8; what is appended, and the cursor moved by the step of the new state. -/
def Obligations.LockMachineTransitions : Prop :=
  (∀ k : FamilyConsts,
    (threshold k .unlocked = k.t0 ∧ threshold k .softLock = k.t1 ∧ threshold k .resync = k.t2 ∧
      threshold k .hardLock = k.t3) ∧
    scanStep k .unlocked = k.unit ∧ scanStep k .resync = k.unit ∧ scanStep k .softLock = k.strideBits ∧
      scanStep k .hardLock = k.strideBits) ∧
  ∀ (k : FamilyConsts), k.nGood = 5 → k.nBad = 5 → k.nSlip = 2 → ∀ (L : FrameLock) (d : Nat),
    (L.st = .unlocked → d ≤ k.t0 → k.locking = true → syStep k L d = ⟨.softLock, 0, 0, false⟩) ∧
    (L.st = .unlocked → d ≤ k.t0 → k.locking = false → syStep k L d = ⟨.unlocked, 0, 0, false⟩) ∧
    (L.st = .unlocked → k.t0 < d → syStep k L d = ⟨.unlocked, 0, 0, false⟩) ∧
    (L.st = .softLock → d ≤ k.t1 → L.good + 1 < 5 → syStep k L d = ⟨.softLock, L.good + 1, 0, true⟩) ∧
    (L.st = .softLock → d ≤ k.t1 → L.good + 1 = 5 → syStep k L d = ⟨.hardLock, 0, 0, true⟩) ∧
    (L.st = .softLock → k.t1 < d → L.streak = true → L.bad + 1 < 2 →
      syStep k L d = ⟨.softLock, 0, L.bad + 1, true⟩) ∧
    (L.st = .softLock → k.t1 < d → L.streak = true → L.bad + 1 = 2 → syStep k L d = ⟨.resync, 0, 0, false⟩) ∧
    (L.st = .softLock → k.t1 < d → L.streak = false → L.bad + 1 < 5 →
      syStep k L d = ⟨.softLock, 0, L.bad + 1, false⟩) ∧
    (L.st = .softLock → k.t1 < d → L.streak = false → L.bad + 1 = 5 → syStep k L d = ⟨.unlocked, 0, 0, false⟩) ∧
    (L.st = .resync → d ≤ k.t2 → syStep k L d = ⟨.softLock, 0, 0, false⟩) ∧
    (L.st = .resync → k.t2 < d → L.bad + 1 < k.resyncBudget → syStep k L d = ⟨.resync, 0, L.bad + 1, false⟩) ∧
    (L.st = .resync → k.t2 < d → L.bad + 1 = k.resyncBudget → syStep k L d = ⟨.unlocked, 0, 0, false⟩) ∧
    (L.st = .hardLock → d ≤ k.t3 → syStep k L d = ⟨.hardLock, 0, 0, true⟩) ∧
    (L.st = .hardLock → k.t3 < d → syStep k L d = ⟨.softLock, 0, 0, true⟩) ∧
    (accepted k L d = true ↔ d ≤ threshold k L.st) ∧
    ∀ (dist : Nat → Nat) (n fuel pos : Nat), admitted k n pos = true →
      (syncLoop k dist n (fuel + 1) pos L).found =
        (if dist pos ≤ threshold k L.st then [pos] else []) ++
          (syncLoop k dist n fuel (pos + scanStep k (syStep k L (dist pos)).st) (syStep k L (dist pos))).found ∧
      (syncLoop k dist n (fuel + 1) pos L).pos =
        (syncLoop k dist n fuel (pos + scanStep k (syStep k L (dist pos)).st) (syStep k L (dist pos))).pos ∧
      (syncLoop k dist n (fuel + 1) pos L).lock =
        (syncLoop k dist n fuel (pos + scanStep k (syStep k L (dist pos)).st) (syStep k L (dist pos))).lock

/-- R150 to R152, R153 (a), R268: the pass is the while loop: some number `m` of candidates, at most
`N - STRIDE_BITS + 1`, each admitted, the one after them not; FS holds the accepted positions in order, and the
registers hold what the last candidate left. -/
def Obligations.PassIsTheWhileLoop : Prop :=
  ∀ (k : FamilyConsts) (dist : Nat → Nat) (n : Nat), 1 ≤ k.unit → 1 ≤ k.strideBits →
    ∃ m, (∀ i, i < m → (passTrace k dist i).1 + max k.w k.strideBits ≤ n) ∧
      n < (passTrace k dist m).1 + max k.w k.strideBits ∧ m ≤ n + 1 - max k.w k.strideBits ∧
      (syncPass k dist n).found =
        (((List.range m).filter (fun i =>
          decide (dist (passTrace k dist i).1 ≤ threshold k (passTrace k dist i).2.st))).map
            (fun i => (passTrace k dist i).1)) ∧
      (syncPass k dist n).lock = (passTrace k dist m).2 ∧ (syncPass k dist n).pos = (passTrace k dist m).1

/-- R150, R153 (b): the pass ends where no whole frame is left, FS is strictly ascending, every FrameStart has a whole
frame behind it, and there are at most `N - STRIDE_BITS + 1` of them. -/
def Obligations.PassEndsAndAscends : Prop :=
  ∀ (k : FamilyConsts) (dist : Nat → Nat) (n : Nat), 1 ≤ k.unit → 1 ≤ k.strideBits →
    (syncPass k dist n).found.Pairwise (· < ·) ∧
    (∀ p ∈ (syncPass k dist n).found, p + max k.w k.strideBits ≤ n) ∧
    n < (syncPass k dist n).pos + max k.w k.strideBits ∧
    (syncPass k dist n).found.length ≤ n + 1 - max k.w k.strideBits

/-- R153 (c): where the machine locks, two FrameStarts are at least a stride apart, so that frames never overlap. -/
def Obligations.LockedFramesNeverOverlap : Prop :=
  ∀ (k : FamilyConsts) (dist : Nat → Nat) (n : Nat), k.locking = true → 1 ≤ k.unit → 1 ≤ k.strideBits →
    (syncPass k dist n).found.Pairwise (fun p q => p + k.strideBits ≤ q)

/-- R153 (e), R141: a window equal to the marker has distance 0, and distance 0 is accepted in every state. -/
def Obligations.MarkerIsAcceptedInEveryState : Prop :=
  (∀ (k : FamilyConsts) (S : Nat → Bool) (p : Nat), hamming k S p = 0 ↔ ∀ j, j < k.w → S (p + j) = markerBit k j) ∧
  (∀ (o : WordOrder) (k : FamilyConsts) (B : Nat → Byte) (p : Nat),
    hammingD o k B p = 0 ↔ ∀ j, j < 6 → word16 o B (p / 16 + j) = markerWord k j) ∧
  (∀ (k : FamilyConsts) (L : FrameLock), accepted k L 0 = true) ∧
  (∀ (k : FamilyConsts) (S : Nat → Bool) (p : Nat), hamming k S p ≤ k.w)

/-- R142: with MSB order, no inversion and BE words the word distance is the bit distance of the concatenation. -/
def Obligations.WordDistanceIsTheBitDistance : Prop :=
  ∀ (k : FamilyConsts) (B : Nat → Byte) (q : Nat), k.w = 96 → k.bitOrder = .msb → k.invert = false →
    hammingD .be k B (16 * q) = hamming k (bits k B) (16 * q)

/-- R146, R147, R149: the counters of a pass stay in the ranges of their lock state, candidate by candidate. -/
def Obligations.PassKeepsCountersInRange : Prop :=
  ∀ (k : FamilyConsts) (dist : Nat → Nat), 1 ≤ k.nGood → 1 ≤ k.nBad → 1 ≤ k.nSlip → 1 ≤ k.resyncBudget →
    (∀ n, LockInRange k (passTrace k dist n).2) ∧ ∀ n, LockInRange k (syncPass k dist n).lock

/-- R155: in family D the candidates are every sixteenth bit, the pass finds exactly the word-aligned occurrences of
the six marker words with a whole frame behind them, and never leaves UNLOCKED. -/
def Obligations.FamilyDFindsExactlyTheMarkers : Prop :=
  ∀ s : State, s.cfg.wf = true →
    (∀ p, p ∈ (sourcePass s .d).found ↔
      p % 16 = 0 ∧ p + s.cfg.d.strideBits ≤ 8 * s.capLen ∧
      ∀ j, j < 6 → word16 s.cfg.wordOrder (capByte s) (p / 16 + j) = markerWord s.cfg.d j) ∧
    (∀ n, passTrace s.cfg.d (sourceDistance s .d) n =
      (16 * n, { st := .unlocked, good := 0, bad := 0, streak := false })) ∧
    (sourcePass s .d).lock = { st := .unlocked, good := 0, bad := 0, streak := false }

/-- R152: SYNC is refused as R243, R244 and R246 say; else it puts the accepted positions of the pass into FS, leaves
the FrameLock and the cursor of its end, sets EMPTY exactly when none was found, sets V_FS and clears what is
downstream. (FS at or beyond FS_COUNT has no specified value, R42 and V6.) -/
def Obligations.SyncStoresThePass : Prop :=
  (∀ (s : State) (e : ErrFlag), FirstRefusal .sync s e → exec .sync s = .next (refuse e s)) ∧
  ∀ (s : State) (f : Family), family s = some f → (f = .m → validBit s .ldb = true) →
    ∃ t, exec .sync s = .next t ∧ Ended t ∧
      t.fsCount = (sourcePass s f).found.length ∧ (∀ k, k < t.fsCount → (sourcePass s f).found[k]? = some (fsElem t k)) ∧
      t.lock = (sourcePass s f).lock ∧ t.pos = (sourcePass s f).pos ∧
      flag t .empty = decide (t.fsCount = 0) ∧ FlagsKeptBut [.busy, .done, .empty] s t ∧
      validBit t .fs = true ∧ validBit t .dmx = false ∧ validBit t .spn = false ∧
      (f ≠ .d → validBit t .pix = false ∧ validBit t .chi = false) ∧
      ValidKeptBut (if f = .d then [.fs, .dmx, .spn] else [.fs, .dmx, .spn, .pix, .chi]) s t ∧
      KeptBut [.fs, .lock] s t

/-! ### The demultiplexer -/

/-- R182, R183: DEMUXD is refused as R244 and R246 say; else it appends for each frame in FS order its spans in index
order, byte by byte, and empties BND. (DMX at or beyond DMX_LEN has no specified value, R42 and V6; BND is empty.) -/
def Obligations.DemuxdConcatenatesTheSpans : Prop :=
  (∀ (s : State) (e : ErrFlag), FirstRefusal .demuxd s e → exec .demuxd s = .next (refuse e s)) ∧
  ∀ s : State, family s = some .m → validBit s .fs = true →
    ∃ t, exec .demuxd s = .next t ∧ Ended t ∧ t.dmxLen = s.fsCount * spanTotal s.cfg s.cfg.dxN ∧
      (∀ f i j, f < s.fsCount → i < s.cfg.dxN → j < s.cfg.dxLen.getD i 0 →
        dmxByte t (f * spanTotal s.cfg s.cfg.dxN + spanTotal s.cfg i + j) =
          byteAt (bits s.cfg.m (ldbByte s)) (fsElem s f + s.cfg.dxOff.getD i 0 + 8 * j)) ∧
      t.bndCount = 0 ∧
      flag t .empty = decide (t.dmxLen = 0) ∧ FlagsKeptBut [.busy, .done, .empty] s t ∧
      validBit t .dmx = true ∧ validBit t .spn = false ∧ validBit t .pix = false ∧ validBit t .chi = false ∧
      ValidKeptBut [.dmx, .spn, .pix, .chi] s t ∧ KeptBut [.dmx, .bnd] s t

/-- R188 to R190: DEMUXM is refused as R244 and R246 say; else it appends 882 derandomized bytes for each kept frame
and nothing for the others, and records for each kept frame with spare 0 the stream position before its bytes plus the
pointer, unchecked. (DMX and BND at or beyond their lengths have no specified value, R42 and V6.) -/
def Obligations.DemuxmKeepsTheSelectedChannel : Prop :=
  (∀ (s : State) (e : ErrFlag), FirstRefusal .demuxm s e → exec .demuxm s = .next (refuse e s)) ∧
  ∀ s : State, family s = some .c → validBit s .fs = true →
    ∃ t, exec .demuxm s = .next t ∧ Ended t ∧ t.dmxLen = 882 * keptBefore s s.fsCount ∧
      (∀ f j, f < s.fsCount → keptFrame s f = true → j < 882 →
        dmxByte t (882 * keptBefore s f + j) =
          frameByte (bits s.cfg.c (capByte s)) (fsElem s f) (14 + j) ^^^ drtByte s (14 + j)) ∧
      t.bndCount = boundariesBefore s s.fsCount ∧
      (∀ f, f < s.fsCount → boundaryFrame s f = true →
        bndElem t (boundariesBefore s f) = 882 * keptBefore s f + fhpOf (framePayload s f)) ∧
      flag t .empty = decide (t.dmxLen = 0) ∧ FlagsKeptBut [.busy, .done, .empty] s t ∧
      validBit t .dmx = true ∧ validBit t .spn = false ∧ validBit t .pix = false ∧ validBit t .chi = false ∧
      ValidKeptBut [.dmx, .spn, .pix, .chi] s t ∧ KeptBut [.dmx, .bnd] s t

/-- R102, R103, R187: the header fields of a payload as numbers. (That the VCID is the low six bits of its byte is the
spec's D21, from general knowledge; log 18.) -/
def Obligations.HeaderFieldsOfThePayload : Prop :=
  ∀ pay : Nat → Byte, vcidOf pay = (pay 1).toNat % 64 ∧ spareOf pay = (pay 8).toNat / 8 ∧
    spareOf pay < 32 ∧
    fhpOf pay = 256 * ((pay 8).toNat % 8) + (pay 9).toNat ∧ fhpOf pay < 2048

/-- R226: SPANS is refused as R244 and R246 say; else it keeps an adjacent pair exactly when it ascends and stays
inside DMX, in order, with its length, and sets SKIP exactly when it dropped one. (SPN at or beyond SPN_COUNT has no
specified value, R42 and V6.) -/
def Obligations.SpansKeepsThePairsInsideDmx : Prop :=
  (∀ (s : State) (e : ErrFlag), FirstRefusal .spans s e → exec .spans s = .next (refuse e s)) ∧
  ∀ s : State, family s = some .c → validBit s .dmx = true →
    ∃ t, exec .spans s = .next t ∧ Ended t ∧ t.spnCount = pairsBefore s (s.bndCount - 1) ∧
      (∀ i, i < s.bndCount - 1 → keptPair s i = true →
        spnElem t (pairsBefore s i) = (bndElem s i, bndElem s (i + 1) - bndElem s i)) ∧
      (∀ n, n < t.spnCount → 0 < (spnElem t n).2 ∧ (spnElem t n).1 + (spnElem t n).2 ≤ t.dmxLen) ∧
      (flag t .skip = true ↔ ∃ i, i < s.bndCount - 1 ∧ keptPair s i = false) ∧
      FlagsKeptBut [.busy, .done, .skip] s t ∧
      validBit t .spn = true ∧ ValidKeptBut [.spn] s t ∧ KeptBut [.spn] s t

/-! ### The unpacker -/

/-- R200, R105: a packed sample is the ten bits at positions `8a + 10i` to `8a + 10i + 9`, most significant first. -/
def Obligations.PackedSampleIsTenBits : Prop :=
  ∀ (B : Nat → Byte) (a i : Nat),
    sample10 B a i < 1024 ∧
    ∀ j, j < 10 → (sample10 B a i).testBit (9 - j) = bitOf .msb false B (8 * a + 10 * i + j)

/-- R201: packing four samples by its formulas and unpacking by R200 returns them. -/
def Obligations.PackThenUnpackReturnsTheSamples : Prop :=
  ∀ (B : Nat → Byte) (a q : Nat) (v0 v1 v2 v3 : Nat), v0 < 1024 → v1 < 1024 → v2 < 1024 → v3 < 1024 →
    (B (a + 5 * q)).toNat = v0 >>> 2 →
    (B (a + 5 * q + 1)).toNat = ((v0 % 4) <<< 6) ||| (v1 >>> 4) →
    (B (a + 5 * q + 2)).toNat = ((v1 % 16) <<< 4) ||| (v2 >>> 6) →
    (B (a + 5 * q + 3)).toNat = ((v2 % 64) <<< 2) ||| (v3 >>> 8) →
    (B (a + 5 * q + 4)).toNat = v3 % 256 →
    sample10 B a (4 * q) = v0 ∧ sample10 B a (4 * q + 1) = v1 ∧ sample10 B a (4 * q + 2) = v2 ∧
      sample10 B a (4 * q + 3) = v3

/-- R206, R207: the scaled sample is the exact product: no element overflows its 16 bits. -/
def Obligations.ScalingIsExact : Prop :=
  ∀ (c : Config) (f : Family), c.wf = true → ∀ n, n ≤ 1023 →
    (scale (c.family f).mult n).toNat = n * (if f = .d then 40 else 60)

/-- R202: UNPK10 is refused as R243, R244 and R246 say; in families M and C it unpacks and scales ARG_COUNT samples
from DMX into PIX. (PIX at or beyond PIX_LEN has no specified value, R42 and V6.) -/
def Obligations.UnpkTenFillsPix : Prop :=
  (∀ (s : State) (e : ErrFlag), FirstRefusal .unpk10 s e → exec .unpk10 s = .next (refuse e s)) ∧
  ∀ (s : State) (f : Family), family s = some f → f ≠ .d → validBit s .dmx = true →
    s.argBase + (10 * s.argCount + 7) / 8 ≤ s.dmxLen →
    ∃ t, exec .unpk10 s = .next t ∧ Ended t ∧ t.pixLen = s.argCount ∧
      (∀ i, i < s.argCount → pixElem t i = scale (s.cfg.family f).mult (sample10 (dmxByte s) s.argBase i)) ∧
      FlagsKeptBut [.busy, .done] s t ∧ validBit t .pix = true ∧ ValidKeptBut [.pix] s t ∧ KeptBut [.pix] s t

/-- R205, R106: UNPK16 is refused as R243, R244 and R246 say; in family D it takes the low ten bits of ARG_COUNT words
of CAP, in WORD_ORDER, scaled, into PIX. (PIX at or beyond PIX_LEN has no specified value, R42 and V6.) -/
def Obligations.UnpkSixteenFillsPix : Prop :=
  (∀ (s : State) (e : ErrFlag), FirstRefusal .unpk16 s e → exec .unpk16 s = .next (refuse e s)) ∧
  ∀ s : State, family s = some .d → s.argBase + 2 * s.argCount ≤ s.capLen →
    ∃ t, exec .unpk16 s = .next t ∧ Ended t ∧ t.pixLen = s.argCount ∧
      (∀ i, i < s.argCount →
        pixElem t i = scale s.cfg.d.mult
          ((match s.cfg.wordOrder with
            | .le => (capByte s (s.argBase + 2 * i)).toNat + 256 * (capByte s (s.argBase + 2 * i + 1)).toNat
            | .be => 256 * (capByte s (s.argBase + 2 * i)).toNat + (capByte s (s.argBase + 2 * i + 1)).toNat) % 1024)) ∧
      FlagsKeptBut [.busy, .done] s t ∧ validBit t .pix = true ∧ ValidKeptBut [.pix] s t ∧ KeptBut [.pix] s t

/-- R209, R208: CHSEL is refused as R243, R244 and R246 say; else it writes the selected channel of PIX into row
ARG_ROW of CHI, and no other element; the row count grows exactly when the row is the next one; V_CHI is cleared. -/
def Obligations.ChselWritesOneRow : Prop :=
  (∀ (s : State) (e : ErrFlag), FirstRefusal .chsel s e → exec .chsel s = .next (refuse e s)) ∧
  ∀ (s : State) (f : Family), family s = some f → validBit s .pix = true →
    1 ≤ channel s → channel s ≤ (s.cfg.family f).nch →
    s.pixLen = (s.cfg.family f).nch * (s.cfg.family f).width → s.argRow ≤ s.chiRows →
    ∃ t, exec .chsel s = .next t ∧ Ended t ∧
      (∀ p, p < (s.cfg.family f).width →
        chiElem t (s.argRow * (s.cfg.family f).width + p) =
          pixElem s ((channel s - 1) + p * (s.cfg.family f).nch)) ∧
      (∀ k, k < s.argRow * (s.cfg.family f).width ∨
          s.argRow * (s.cfg.family f).width + (s.cfg.family f).width ≤ k → chiElem t k = chiElem s k) ∧
      t.chiRows = (if s.argRow = s.chiRows then s.chiRows + 1 else s.chiRows) ∧
      FlagsKeptBut [.busy, .done] s t ∧ validBit t .chi = false ∧ ValidKeptBut [.chi] s t ∧ KeptBut [.chi] s t

/-- R228: DECCH is refused as R243, R244 and R246 say; else it builds one row per LINE element, the scaled samples of
the selected channel of that scan line, and changes neither PIX nor LINE nor any stage product. (CHI beyond its rows
has no specified value, R42 and V6.) -/
def Obligations.DecchBuildsTheImage : Prop :=
  (∀ (s : State) (e : ErrFlag), FirstRefusal .decch s e → exec .decch s = .next (refuse e s)) ∧
  ∀ (s : State) (f : Family), family s = some f → (f ≠ .d → validBit s .dmx = true) →
    1 ≤ channel s → channel s ≤ (s.cfg.family f).nch →
    (∀ r, r < s.lineCount →
      lineElem s r + (if f = .d then 2 * (s.cfg.d.nch * s.cfg.d.width)
        else (10 * ((s.cfg.family f).nch * (s.cfg.family f).width) + 7) / 8) ≤ (if f = .d then s.capLen else s.dmxLen)) →
    ∃ t, exec .decch s = .next t ∧ Ended t ∧ t.chiRows = s.lineCount ∧
      (∀ r p, r < s.lineCount → p < (s.cfg.family f).width →
        chiElem t (r * (s.cfg.family f).width + p) =
          scale (s.cfg.family f).mult
            (match f with
              | .d => sample16 s.cfg.wordOrder (capByte s) (lineElem s r) ((channel s - 1) + p * s.cfg.d.nch)
              | .m => sample10 (dmxByte s) (lineElem s r) ((channel s - 1) + p * s.cfg.m.nch)
              | .c => sample10 (dmxByte s) (lineElem s r) ((channel s - 1) + p * s.cfg.c.nch))) ∧
      flag t .empty = decide (s.lineCount = 0) ∧ FlagsKeptBut [.busy, .done, .empty] s t ∧
      validBit t .chi = true ∧ ValidKeptBut [.chi] s t ∧ KeptBut [.chi] s t

/-- R228: row r of DECCH equals UNPK10 (UNPK16 in family D) at `LINE[r]` with `NCH * WIDTH` samples, followed by CHSEL
with `ARG_ROW = r`: redoing any row that way after DECCH is refused nowhere, and leaves every element of CHI as it is.
-/
def Obligations.DecchRowIsUnpackThenSelect : Prop :=
  ∀ (s t : State) (f : Family) (r : Nat), family s = some f → (f ≠ .d → validBit s .dmx = true) →
    1 ≤ channel s → channel s ≤ (s.cfg.family f).nch →
    (∀ r, r < s.lineCount →
      lineElem s r + (if f = .d then 2 * (s.cfg.d.nch * s.cfg.d.width)
        else (10 * ((s.cfg.family f).nch * (s.cfg.family f).width) + 7) / 8) ≤ (if f = .d then s.capLen else s.dmxLen)) →
    exec .decch s = .next t → r < s.lineCount →
    ∃ u v, exec (if f = .d then .unpk16 else .unpk10)
        { t with argBase := lineElem s r, argCount := (s.cfg.family f).nch * (s.cfg.family f).width } = .next u ∧
      exec .chsel { u with argRow := r } = .next v ∧
      validBit u .pix = true ∧ u.pixLen = (s.cfg.family f).nch * (s.cfg.family f).width ∧
      (∀ i, i < u.pixLen → pixElem u i = scale (s.cfg.family f).mult (unpackSample s f (lineElem s r) i)) ∧
      validBit t .chi = true ∧ validBit v .chi = false ∧
      (∀ e : ErrFlag, flag u e.flag = flag t e.flag ∧ flag v e.flag = flag t e.flag) ∧
      v.chiRows = t.chiRows ∧ ∀ k, chiElem v k = chiElem t k

/-! ### Refusals -/

/-- R240: a refusal sets its sticky flag, clears BUSY and sets DONE, and changes nothing else; a command that leaves a
new error flag has done that and nothing more. -/
def Obligations.RefusalIsPrecise : Prop :=
  (∀ (e : ErrFlag) (s : State), Ended (refuse e s) ∧ flag (refuse e s) e.flag = true ∧
    FlagsKeptBut [.busy, .done, e.flag] s (refuse e s) ∧ (refuse e s).valid = s.valid ∧ KeptBut [] s (refuse e s)) ∧
  (∀ (i : Instr) (s t : State) (e : ErrFlag), exec i s = .next t → flag s e.flag = false → flag t e.flag = true →
    t = refuse e s)

/-- R243, R244, R246: a reserved code is refused with ERR_CMD before anything else; a command to which a flag applies
first is refused with that flag; a command to which none applies runs, and raises no error flag. -/
def Obligations.FirstApplicableRefusalIsTaken : Prop :=
  (∀ (c : Byte) (s : State), (∀ i, (c, i) ∉ commandMap) → runHeld c s = .next (refuse .errCmd s)) ∧
  (∀ (i : Instr) (s : State) (e : ErrFlag), FirstRefusal i s e → exec i s = .next (refuse e s)) ∧
  (∀ (i : Instr) (s : State), (∀ e, ¬ FirstRefusal i s e) → ∃ t, exec i s = .next t ∧ Ended t ∧
    ∀ e : ErrFlag, flag t e.flag = true → flag s e.flag = true)

/-- R36: the three error flags are sticky: over a whole step, only a held RESET can clear one. -/
def Obligations.OnlyResetClearsErrorFlags : Prop :=
  ∀ (s t : State) (e : ErrFlag), step s = .next t → flag s e.flag = true → flag t e.flag = false → s.cmd = some 0x01#8

/-- R245: a second refusal sets its flag and leaves the first set; error flags already set steer no command but RESET,
which clears them. -/
def Obligations.ErrorFlagsSteerNoCommand : Prop :=
  (∀ (s : State) (e e' : ErrFlag), flag (refuse e' (refuse e s)) e.flag = true ∧
    flag (refuse e' (refuse e s)) e'.flag = true) ∧
  (∀ (i : Instr) (s : State) (e : ErrFlag), i ≠ .reset →
    ∃ t, exec i s = .next t ∧ exec i (setFlag e.flag s) = .next (setFlag e.flag t))

/-- R34: PASSDIR is read by no command: turning it over changes only the bit itself. -/
def Obligations.PassdirSteersNoCommand : Prop :=
  ∀ (i : Instr) (s : State), i ≠ .reset →
    ∃ t, exec i s = .next t ∧ exec i (flipPassdir s) = .next (flipPassdir t)

/-- R241: the empty results end normally, with the error flags as they were. -/
def Obligations.EmptyResultsEndNormally : Prop :=
  ∀ s : State,
    (family s = some .m → s.capLen ≤ 1 → ∃ t, exec .ldec s = .next t ∧ Ended t ∧ t.ldbLen = 0 ∧
      ∀ e : ErrFlag, flag t e.flag = flag s e.flag) ∧
    (∀ f, family s = some f → (f = .m → validBit s .ldb = true) →
      8 * srcLen s f < max (s.cfg.family f).w (s.cfg.family f).strideBits →
      ∃ t, exec .sync s = .next t ∧ Ended t ∧ t.fsCount = 0 ∧ flag t .empty = true ∧
        ∀ e : ErrFlag, flag t e.flag = flag s e.flag) ∧
    (family s = some .m → validBit s .fs = true → s.fsCount = 0 → ∃ t, exec .demuxd s = .next t ∧ Ended t ∧
      t.dmxLen = 0 ∧ flag t .empty = true ∧ ∀ e : ErrFlag, flag t e.flag = flag s e.flag) ∧
    (family s = some .c → validBit s .fs = true → (∀ f, f < s.fsCount → keptFrame s f = false) →
      ∃ t, exec .demuxm s = .next t ∧ Ended t ∧ t.dmxLen = 0 ∧ flag t .empty = true ∧
        ∀ e : ErrFlag, flag t e.flag = flag s e.flag) ∧
    (family s = some .c → validBit s .dmx = true → s.bndCount < 2 → ∃ t, exec .spans s = .next t ∧ Ended t ∧
      t.spnCount = 0 ∧ flag t .skip = false ∧ ∀ e : ErrFlag, flag t e.flag = flag s e.flag) ∧
    (∀ f, family s = some f → (f ≠ .d → validBit s .dmx = true) → 1 ≤ channel s →
      channel s ≤ (s.cfg.family f).nch → s.lineCount = 0 → ∃ t, exec .decch s = .next t ∧ Ended t ∧
        t.chiRows = 0 ∧ flag t .empty = true ∧ ∀ e : ErrFlag, flag t e.flag = flag s e.flag)

/-! ### The whole machine -/

/-- R268: every command ends: from every state it answers a next state with BUSY = 0 and DONE = 1. -/
def Obligations.EveryCommandEnds : Prop := ∀ (i : Instr) (s : State), ∃ t, exec i s = .next t ∧ Ended t

/-- R21, R31, R34, R39: no command but RESET writes CAP, CAP_LEN, LINE, LINE_COUNT, CONFIG or an argument register. -/
def Obligations.CommandsKeepTheHostsObjects : Prop :=
  ∀ (i : Instr) (s t : State), i ≠ .reset → exec i s = .next t →
    PartKept .model s t ∧ PartKept .config s t ∧ PartKept .cap s t ∧ PartKept .line s t ∧ PartKept .args s t

/-- R22, R24, R26 to R30: a product changes over a step only by the commands its rule names, or by RESET. -/
def Obligations.ProductsHaveTheirWriters : Prop :=
  ∀ (s t : State), step s = .next t →
    (¬ PartKept .ldb s t → s.cmd = some 0x10#8 ∨ s.cmd = some 0x01#8) ∧
    (¬ PartKept .fs s t → s.cmd = some 0x20#8 ∨ s.cmd = some 0x01#8) ∧
    (¬ PartKept .drt s t → s.cmd = some 0x02#8 ∨ s.cmd = some 0x01#8) ∧
    (¬ PartKept .dmx s t → s.cmd = some 0x30#8 ∨ s.cmd = some 0x31#8 ∨ s.cmd = some 0x01#8) ∧
    (¬ PartKept .bnd s t → s.cmd = some 0x30#8 ∨ s.cmd = some 0x31#8 ∨ s.cmd = some 0x01#8) ∧
    (¬ PartKept .spn s t → s.cmd = some 0x32#8 ∨ s.cmd = some 0x01#8) ∧
    (¬ PartKept .pix s t → s.cmd = some 0x40#8 ∨ s.cmd = some 0x41#8 ∨ s.cmd = some 0x01#8) ∧
    (¬ PartKept .chi s t → s.cmd = some 0x42#8 ∨ s.cmd = some 0x43#8 ∨ s.cmd = some 0x01#8) ∧
    (¬ PartKept .lock s t → s.cmd = some 0x20#8 ∨ s.cmd = some 0x01#8)

/-- R266: a command issued twice in a row leaves the second time the state it left the first (CHSEL, when ARG_ROW
names an existing row). The model's own count of resets, log 6, is no state of the block. -/
def Obligations.CommandsAreRepeatable : Prop :=
  ∀ (i : Instr) (s t : State), memoryWf s = true → exec i s = .next t → (i = .chsel → s.argRow < s.chiRows) →
    ∃ u, exec i t = .next u ∧ { u with era := t.era } = t

/-- The invariant of the machine is kept by every step (R25, R32, R34, R36, R37, R42, R67; the canonical form is the
model's). -/
def Obligations.EveryStepKeepsTheInvariant : Prop := ∀ s t : State, Sound s → step s = .next t → Sound t

/-- R24, R150, R181: while V_FS stands, FS is ascending and every FrameStart has a whole frame behind it: every step
keeps this. -/
def Obligations.EveryStepKeepsFrameStartsWhole : Prop :=
  ∀ s t : State, FrameStartsWhole s → step s = .next t → FrameStartsWhole t

/-- Both invariants hold after power-on reset. -/
def Obligations.InvariantsHoldAtReset : Prop := Sound State.reset ∧ FrameStartsWhole State.reset
end

