-- ==== Sys2Proof/Laws/State.lean ====
section
/-! SUPPORT. One lemma per field per named update of the state: what the update leaves there. -/
namespace Sys2Proof.Machine

variable (s : State) (f : StatusFlag) (v : ValidBit) (vs : List ValidBit) (b : Bool) (c : Byte) (e : ErrFlag)

/-! ### `setFlag` -/

@[simp] theorem setFlag_cfg : (setFlag f s).cfg = s.cfg := rfl
@[simp] theorem setFlag_host : (setFlag f s).host = s.host := rfl
@[simp] theorem setFlag_era : (setFlag f s).era = s.era := rfl
@[simp] theorem setFlag_cmd : (setFlag f s).cmd = s.cmd := rfl
@[simp] theorem setFlag_status : (setFlag f s).status = s.status ||| (1#32 <<< f.bit) := rfl
@[simp] theorem setFlag_config : (setFlag f s).config = s.config := rfl
@[simp] theorem setFlag_valid : (setFlag f s).valid = s.valid := rfl
@[simp] theorem setFlag_capLen : (setFlag f s).capLen = s.capLen := rfl
@[simp] theorem setFlag_ldbLen : (setFlag f s).ldbLen = s.ldbLen := rfl
@[simp] theorem setFlag_fsCount : (setFlag f s).fsCount = s.fsCount := rfl
@[simp] theorem setFlag_dmxLen : (setFlag f s).dmxLen = s.dmxLen := rfl
@[simp] theorem setFlag_bndCount : (setFlag f s).bndCount = s.bndCount := rfl
@[simp] theorem setFlag_spnCount : (setFlag f s).spnCount = s.spnCount := rfl
@[simp] theorem setFlag_lineCount : (setFlag f s).lineCount = s.lineCount := rfl
@[simp] theorem setFlag_pixLen : (setFlag f s).pixLen = s.pixLen := rfl
@[simp] theorem setFlag_chiRows : (setFlag f s).chiRows = s.chiRows := rfl
@[simp] theorem setFlag_argBase : (setFlag f s).argBase = s.argBase := rfl
@[simp] theorem setFlag_argCount : (setFlag f s).argCount = s.argCount := rfl
@[simp] theorem setFlag_argRow : (setFlag f s).argRow = s.argRow := rfl
@[simp] theorem setFlag_cap : (setFlag f s).cap = s.cap := rfl
@[simp] theorem setFlag_ldb : (setFlag f s).ldb = s.ldb := rfl
@[simp] theorem setFlag_fs : (setFlag f s).fs = s.fs := rfl
@[simp] theorem setFlag_drt : (setFlag f s).drt = s.drt := rfl
@[simp] theorem setFlag_dmx : (setFlag f s).dmx = s.dmx := rfl
@[simp] theorem setFlag_bnd : (setFlag f s).bnd = s.bnd := rfl
@[simp] theorem setFlag_spn : (setFlag f s).spn = s.spn := rfl
@[simp] theorem setFlag_pix : (setFlag f s).pix = s.pix := rfl
@[simp] theorem setFlag_chi : (setFlag f s).chi = s.chi := rfl
@[simp] theorem setFlag_line : (setFlag f s).line = s.line := rfl
@[simp] theorem setFlag_lock : (setFlag f s).lock = s.lock := rfl
@[simp] theorem setFlag_pos : (setFlag f s).pos = s.pos := rfl
@[simp] theorem setFlag_lfsr : (setFlag f s).lfsr = s.lfsr := rfl

/-! ### `clearFlag` -/

@[simp] theorem clearFlag_cfg : (clearFlag f s).cfg = s.cfg := rfl
@[simp] theorem clearFlag_host : (clearFlag f s).host = s.host := rfl
@[simp] theorem clearFlag_era : (clearFlag f s).era = s.era := rfl
@[simp] theorem clearFlag_cmd : (clearFlag f s).cmd = s.cmd := rfl
@[simp] theorem clearFlag_status : (clearFlag f s).status = s.status &&& ~~~(1#32 <<< f.bit) := rfl
@[simp] theorem clearFlag_config : (clearFlag f s).config = s.config := rfl
@[simp] theorem clearFlag_valid : (clearFlag f s).valid = s.valid := rfl
@[simp] theorem clearFlag_capLen : (clearFlag f s).capLen = s.capLen := rfl
@[simp] theorem clearFlag_ldbLen : (clearFlag f s).ldbLen = s.ldbLen := rfl
@[simp] theorem clearFlag_fsCount : (clearFlag f s).fsCount = s.fsCount := rfl
@[simp] theorem clearFlag_dmxLen : (clearFlag f s).dmxLen = s.dmxLen := rfl
@[simp] theorem clearFlag_bndCount : (clearFlag f s).bndCount = s.bndCount := rfl
@[simp] theorem clearFlag_spnCount : (clearFlag f s).spnCount = s.spnCount := rfl
@[simp] theorem clearFlag_lineCount : (clearFlag f s).lineCount = s.lineCount := rfl
@[simp] theorem clearFlag_pixLen : (clearFlag f s).pixLen = s.pixLen := rfl
@[simp] theorem clearFlag_chiRows : (clearFlag f s).chiRows = s.chiRows := rfl
@[simp] theorem clearFlag_argBase : (clearFlag f s).argBase = s.argBase := rfl
@[simp] theorem clearFlag_argCount : (clearFlag f s).argCount = s.argCount := rfl
@[simp] theorem clearFlag_argRow : (clearFlag f s).argRow = s.argRow := rfl
@[simp] theorem clearFlag_cap : (clearFlag f s).cap = s.cap := rfl
@[simp] theorem clearFlag_ldb : (clearFlag f s).ldb = s.ldb := rfl
@[simp] theorem clearFlag_fs : (clearFlag f s).fs = s.fs := rfl
@[simp] theorem clearFlag_drt : (clearFlag f s).drt = s.drt := rfl
@[simp] theorem clearFlag_dmx : (clearFlag f s).dmx = s.dmx := rfl
@[simp] theorem clearFlag_bnd : (clearFlag f s).bnd = s.bnd := rfl
@[simp] theorem clearFlag_spn : (clearFlag f s).spn = s.spn := rfl
@[simp] theorem clearFlag_pix : (clearFlag f s).pix = s.pix := rfl
@[simp] theorem clearFlag_chi : (clearFlag f s).chi = s.chi := rfl
@[simp] theorem clearFlag_line : (clearFlag f s).line = s.line := rfl
@[simp] theorem clearFlag_lock : (clearFlag f s).lock = s.lock := rfl
@[simp] theorem clearFlag_pos : (clearFlag f s).pos = s.pos := rfl
@[simp] theorem clearFlag_lfsr : (clearFlag f s).lfsr = s.lfsr := rfl

/-! ### `setValid` -/

@[simp] theorem setValid_cfg : (setValid v s).cfg = s.cfg := rfl
@[simp] theorem setValid_host : (setValid v s).host = s.host := rfl
@[simp] theorem setValid_era : (setValid v s).era = s.era := rfl
@[simp] theorem setValid_cmd : (setValid v s).cmd = s.cmd := rfl
@[simp] theorem setValid_status : (setValid v s).status = s.status := rfl
@[simp] theorem setValid_config : (setValid v s).config = s.config := rfl
@[simp] theorem setValid_valid : (setValid v s).valid = s.valid ||| (1#32 <<< v.bit) := rfl
@[simp] theorem setValid_capLen : (setValid v s).capLen = s.capLen := rfl
@[simp] theorem setValid_ldbLen : (setValid v s).ldbLen = s.ldbLen := rfl
@[simp] theorem setValid_fsCount : (setValid v s).fsCount = s.fsCount := rfl
@[simp] theorem setValid_dmxLen : (setValid v s).dmxLen = s.dmxLen := rfl
@[simp] theorem setValid_bndCount : (setValid v s).bndCount = s.bndCount := rfl
@[simp] theorem setValid_spnCount : (setValid v s).spnCount = s.spnCount := rfl
@[simp] theorem setValid_lineCount : (setValid v s).lineCount = s.lineCount := rfl
@[simp] theorem setValid_pixLen : (setValid v s).pixLen = s.pixLen := rfl
@[simp] theorem setValid_chiRows : (setValid v s).chiRows = s.chiRows := rfl
@[simp] theorem setValid_argBase : (setValid v s).argBase = s.argBase := rfl
@[simp] theorem setValid_argCount : (setValid v s).argCount = s.argCount := rfl
@[simp] theorem setValid_argRow : (setValid v s).argRow = s.argRow := rfl
@[simp] theorem setValid_cap : (setValid v s).cap = s.cap := rfl
@[simp] theorem setValid_ldb : (setValid v s).ldb = s.ldb := rfl
@[simp] theorem setValid_fs : (setValid v s).fs = s.fs := rfl
@[simp] theorem setValid_drt : (setValid v s).drt = s.drt := rfl
@[simp] theorem setValid_dmx : (setValid v s).dmx = s.dmx := rfl
@[simp] theorem setValid_bnd : (setValid v s).bnd = s.bnd := rfl
@[simp] theorem setValid_spn : (setValid v s).spn = s.spn := rfl
@[simp] theorem setValid_pix : (setValid v s).pix = s.pix := rfl
@[simp] theorem setValid_chi : (setValid v s).chi = s.chi := rfl
@[simp] theorem setValid_line : (setValid v s).line = s.line := rfl
@[simp] theorem setValid_lock : (setValid v s).lock = s.lock := rfl
@[simp] theorem setValid_pos : (setValid v s).pos = s.pos := rfl
@[simp] theorem setValid_lfsr : (setValid v s).lfsr = s.lfsr := rfl

/-! ### `clearValid` -/

@[simp] theorem clearValid_cfg : (clearValid vs s).cfg = s.cfg := rfl
@[simp] theorem clearValid_host : (clearValid vs s).host = s.host := rfl
@[simp] theorem clearValid_era : (clearValid vs s).era = s.era := rfl
@[simp] theorem clearValid_cmd : (clearValid vs s).cmd = s.cmd := rfl
@[simp] theorem clearValid_status : (clearValid vs s).status = s.status := rfl
@[simp] theorem clearValid_config : (clearValid vs s).config = s.config := rfl
@[simp] theorem clearValid_valid : (clearValid vs s).valid = s.valid &&& ~~~(validWord vs) := rfl
@[simp] theorem clearValid_capLen : (clearValid vs s).capLen = s.capLen := rfl
@[simp] theorem clearValid_ldbLen : (clearValid vs s).ldbLen = s.ldbLen := rfl
@[simp] theorem clearValid_fsCount : (clearValid vs s).fsCount = s.fsCount := rfl
@[simp] theorem clearValid_dmxLen : (clearValid vs s).dmxLen = s.dmxLen := rfl
@[simp] theorem clearValid_bndCount : (clearValid vs s).bndCount = s.bndCount := rfl
@[simp] theorem clearValid_spnCount : (clearValid vs s).spnCount = s.spnCount := rfl
@[simp] theorem clearValid_lineCount : (clearValid vs s).lineCount = s.lineCount := rfl
@[simp] theorem clearValid_pixLen : (clearValid vs s).pixLen = s.pixLen := rfl
@[simp] theorem clearValid_chiRows : (clearValid vs s).chiRows = s.chiRows := rfl
@[simp] theorem clearValid_argBase : (clearValid vs s).argBase = s.argBase := rfl
@[simp] theorem clearValid_argCount : (clearValid vs s).argCount = s.argCount := rfl
@[simp] theorem clearValid_argRow : (clearValid vs s).argRow = s.argRow := rfl
@[simp] theorem clearValid_cap : (clearValid vs s).cap = s.cap := rfl
@[simp] theorem clearValid_ldb : (clearValid vs s).ldb = s.ldb := rfl
@[simp] theorem clearValid_fs : (clearValid vs s).fs = s.fs := rfl
@[simp] theorem clearValid_drt : (clearValid vs s).drt = s.drt := rfl
@[simp] theorem clearValid_dmx : (clearValid vs s).dmx = s.dmx := rfl
@[simp] theorem clearValid_bnd : (clearValid vs s).bnd = s.bnd := rfl
@[simp] theorem clearValid_spn : (clearValid vs s).spn = s.spn := rfl
@[simp] theorem clearValid_pix : (clearValid vs s).pix = s.pix := rfl
@[simp] theorem clearValid_chi : (clearValid vs s).chi = s.chi := rfl
@[simp] theorem clearValid_line : (clearValid vs s).line = s.line := rfl
@[simp] theorem clearValid_lock : (clearValid vs s).lock = s.lock := rfl
@[simp] theorem clearValid_pos : (clearValid vs s).pos = s.pos := rfl
@[simp] theorem clearValid_lfsr : (clearValid vs s).lfsr = s.lfsr := rfl

/-! ### `putFlag` -/

@[simp] theorem putFlag_cfg : (putFlag f b s).cfg = s.cfg := by cases b <;> rfl
@[simp] theorem putFlag_host : (putFlag f b s).host = s.host := by cases b <;> rfl
@[simp] theorem putFlag_era : (putFlag f b s).era = s.era := by cases b <;> rfl
@[simp] theorem putFlag_cmd : (putFlag f b s).cmd = s.cmd := by cases b <;> rfl
@[simp] theorem putFlag_config : (putFlag f b s).config = s.config := by cases b <;> rfl
@[simp] theorem putFlag_valid : (putFlag f b s).valid = s.valid := by cases b <;> rfl
@[simp] theorem putFlag_capLen : (putFlag f b s).capLen = s.capLen := by cases b <;> rfl
@[simp] theorem putFlag_ldbLen : (putFlag f b s).ldbLen = s.ldbLen := by cases b <;> rfl
@[simp] theorem putFlag_fsCount : (putFlag f b s).fsCount = s.fsCount := by cases b <;> rfl
@[simp] theorem putFlag_dmxLen : (putFlag f b s).dmxLen = s.dmxLen := by cases b <;> rfl
@[simp] theorem putFlag_bndCount : (putFlag f b s).bndCount = s.bndCount := by cases b <;> rfl
@[simp] theorem putFlag_spnCount : (putFlag f b s).spnCount = s.spnCount := by cases b <;> rfl
@[simp] theorem putFlag_lineCount : (putFlag f b s).lineCount = s.lineCount := by cases b <;> rfl
@[simp] theorem putFlag_pixLen : (putFlag f b s).pixLen = s.pixLen := by cases b <;> rfl
@[simp] theorem putFlag_chiRows : (putFlag f b s).chiRows = s.chiRows := by cases b <;> rfl
@[simp] theorem putFlag_argBase : (putFlag f b s).argBase = s.argBase := by cases b <;> rfl
@[simp] theorem putFlag_argCount : (putFlag f b s).argCount = s.argCount := by cases b <;> rfl
@[simp] theorem putFlag_argRow : (putFlag f b s).argRow = s.argRow := by cases b <;> rfl
@[simp] theorem putFlag_cap : (putFlag f b s).cap = s.cap := by cases b <;> rfl
@[simp] theorem putFlag_ldb : (putFlag f b s).ldb = s.ldb := by cases b <;> rfl
@[simp] theorem putFlag_fs : (putFlag f b s).fs = s.fs := by cases b <;> rfl
@[simp] theorem putFlag_drt : (putFlag f b s).drt = s.drt := by cases b <;> rfl
@[simp] theorem putFlag_dmx : (putFlag f b s).dmx = s.dmx := by cases b <;> rfl
@[simp] theorem putFlag_bnd : (putFlag f b s).bnd = s.bnd := by cases b <;> rfl
@[simp] theorem putFlag_spn : (putFlag f b s).spn = s.spn := by cases b <;> rfl
@[simp] theorem putFlag_pix : (putFlag f b s).pix = s.pix := by cases b <;> rfl
@[simp] theorem putFlag_chi : (putFlag f b s).chi = s.chi := by cases b <;> rfl
@[simp] theorem putFlag_line : (putFlag f b s).line = s.line := by cases b <;> rfl
@[simp] theorem putFlag_lock : (putFlag f b s).lock = s.lock := by cases b <;> rfl
@[simp] theorem putFlag_pos : (putFlag f b s).pos = s.pos := by cases b <;> rfl
@[simp] theorem putFlag_lfsr : (putFlag f b s).lfsr = s.lfsr := by cases b <;> rfl

/-! ### `startCommand` -/

@[simp] theorem startCommand_cfg : (startCommand c s).cfg = s.cfg := rfl
@[simp] theorem startCommand_host : (startCommand c s).host = s.host := rfl
@[simp] theorem startCommand_era : (startCommand c s).era = s.era := rfl
@[simp] theorem startCommand_cmd : (startCommand c s).cmd = some c := rfl
@[simp] theorem startCommand_config : (startCommand c s).config = s.config := rfl
@[simp] theorem startCommand_valid : (startCommand c s).valid = s.valid := rfl
@[simp] theorem startCommand_capLen : (startCommand c s).capLen = s.capLen := rfl
@[simp] theorem startCommand_ldbLen : (startCommand c s).ldbLen = s.ldbLen := rfl
@[simp] theorem startCommand_fsCount : (startCommand c s).fsCount = s.fsCount := rfl
@[simp] theorem startCommand_dmxLen : (startCommand c s).dmxLen = s.dmxLen := rfl
@[simp] theorem startCommand_bndCount : (startCommand c s).bndCount = s.bndCount := rfl
@[simp] theorem startCommand_spnCount : (startCommand c s).spnCount = s.spnCount := rfl
@[simp] theorem startCommand_lineCount : (startCommand c s).lineCount = s.lineCount := rfl
@[simp] theorem startCommand_pixLen : (startCommand c s).pixLen = s.pixLen := rfl
@[simp] theorem startCommand_chiRows : (startCommand c s).chiRows = s.chiRows := rfl
@[simp] theorem startCommand_argBase : (startCommand c s).argBase = s.argBase := rfl
@[simp] theorem startCommand_argCount : (startCommand c s).argCount = s.argCount := rfl
@[simp] theorem startCommand_argRow : (startCommand c s).argRow = s.argRow := rfl
@[simp] theorem startCommand_cap : (startCommand c s).cap = s.cap := rfl
@[simp] theorem startCommand_ldb : (startCommand c s).ldb = s.ldb := rfl
@[simp] theorem startCommand_fs : (startCommand c s).fs = s.fs := rfl
@[simp] theorem startCommand_drt : (startCommand c s).drt = s.drt := rfl
@[simp] theorem startCommand_dmx : (startCommand c s).dmx = s.dmx := rfl
@[simp] theorem startCommand_bnd : (startCommand c s).bnd = s.bnd := rfl
@[simp] theorem startCommand_spn : (startCommand c s).spn = s.spn := rfl
@[simp] theorem startCommand_pix : (startCommand c s).pix = s.pix := rfl
@[simp] theorem startCommand_chi : (startCommand c s).chi = s.chi := rfl
@[simp] theorem startCommand_line : (startCommand c s).line = s.line := rfl
@[simp] theorem startCommand_lock : (startCommand c s).lock = s.lock := rfl
@[simp] theorem startCommand_pos : (startCommand c s).pos = s.pos := rfl
@[simp] theorem startCommand_lfsr : (startCommand c s).lfsr = s.lfsr := rfl

/-! ### `endCommand` -/

@[simp] theorem endCommand_cfg : (endCommand s).cfg = s.cfg := rfl
@[simp] theorem endCommand_host : (endCommand s).host = s.host := rfl
@[simp] theorem endCommand_era : (endCommand s).era = s.era := rfl
@[simp] theorem endCommand_cmd : (endCommand s).cmd = none := rfl
@[simp] theorem endCommand_config : (endCommand s).config = s.config := rfl
@[simp] theorem endCommand_valid : (endCommand s).valid = s.valid := rfl
@[simp] theorem endCommand_capLen : (endCommand s).capLen = s.capLen := rfl
@[simp] theorem endCommand_ldbLen : (endCommand s).ldbLen = s.ldbLen := rfl
@[simp] theorem endCommand_fsCount : (endCommand s).fsCount = s.fsCount := rfl
@[simp] theorem endCommand_dmxLen : (endCommand s).dmxLen = s.dmxLen := rfl
@[simp] theorem endCommand_bndCount : (endCommand s).bndCount = s.bndCount := rfl
@[simp] theorem endCommand_spnCount : (endCommand s).spnCount = s.spnCount := rfl
@[simp] theorem endCommand_lineCount : (endCommand s).lineCount = s.lineCount := rfl
@[simp] theorem endCommand_pixLen : (endCommand s).pixLen = s.pixLen := rfl
@[simp] theorem endCommand_chiRows : (endCommand s).chiRows = s.chiRows := rfl
@[simp] theorem endCommand_argBase : (endCommand s).argBase = s.argBase := rfl
@[simp] theorem endCommand_argCount : (endCommand s).argCount = s.argCount := rfl
@[simp] theorem endCommand_argRow : (endCommand s).argRow = s.argRow := rfl
@[simp] theorem endCommand_cap : (endCommand s).cap = s.cap := rfl
@[simp] theorem endCommand_ldb : (endCommand s).ldb = s.ldb := rfl
@[simp] theorem endCommand_fs : (endCommand s).fs = s.fs := rfl
@[simp] theorem endCommand_drt : (endCommand s).drt = s.drt := rfl
@[simp] theorem endCommand_dmx : (endCommand s).dmx = s.dmx := rfl
@[simp] theorem endCommand_bnd : (endCommand s).bnd = s.bnd := rfl
@[simp] theorem endCommand_spn : (endCommand s).spn = s.spn := rfl
@[simp] theorem endCommand_pix : (endCommand s).pix = s.pix := rfl
@[simp] theorem endCommand_chi : (endCommand s).chi = s.chi := rfl
@[simp] theorem endCommand_line : (endCommand s).line = s.line := rfl
@[simp] theorem endCommand_lock : (endCommand s).lock = s.lock := rfl
@[simp] theorem endCommand_pos : (endCommand s).pos = s.pos := rfl
@[simp] theorem endCommand_lfsr : (endCommand s).lfsr = s.lfsr := rfl

/-! ### `refuse` -/

@[simp] theorem refuse_cfg : (refuse e s).cfg = s.cfg := rfl
@[simp] theorem refuse_host : (refuse e s).host = s.host := rfl
@[simp] theorem refuse_era : (refuse e s).era = s.era := rfl
@[simp] theorem refuse_cmd : (refuse e s).cmd = none := rfl
@[simp] theorem refuse_config : (refuse e s).config = s.config := rfl
@[simp] theorem refuse_valid : (refuse e s).valid = s.valid := rfl
@[simp] theorem refuse_capLen : (refuse e s).capLen = s.capLen := rfl
@[simp] theorem refuse_ldbLen : (refuse e s).ldbLen = s.ldbLen := rfl
@[simp] theorem refuse_fsCount : (refuse e s).fsCount = s.fsCount := rfl
@[simp] theorem refuse_dmxLen : (refuse e s).dmxLen = s.dmxLen := rfl
@[simp] theorem refuse_bndCount : (refuse e s).bndCount = s.bndCount := rfl
@[simp] theorem refuse_spnCount : (refuse e s).spnCount = s.spnCount := rfl
@[simp] theorem refuse_lineCount : (refuse e s).lineCount = s.lineCount := rfl
@[simp] theorem refuse_pixLen : (refuse e s).pixLen = s.pixLen := rfl
@[simp] theorem refuse_chiRows : (refuse e s).chiRows = s.chiRows := rfl
@[simp] theorem refuse_argBase : (refuse e s).argBase = s.argBase := rfl
@[simp] theorem refuse_argCount : (refuse e s).argCount = s.argCount := rfl
@[simp] theorem refuse_argRow : (refuse e s).argRow = s.argRow := rfl
@[simp] theorem refuse_cap : (refuse e s).cap = s.cap := rfl
@[simp] theorem refuse_ldb : (refuse e s).ldb = s.ldb := rfl
@[simp] theorem refuse_fs : (refuse e s).fs = s.fs := rfl
@[simp] theorem refuse_drt : (refuse e s).drt = s.drt := rfl
@[simp] theorem refuse_dmx : (refuse e s).dmx = s.dmx := rfl
@[simp] theorem refuse_bnd : (refuse e s).bnd = s.bnd := rfl
@[simp] theorem refuse_spn : (refuse e s).spn = s.spn := rfl
@[simp] theorem refuse_pix : (refuse e s).pix = s.pix := rfl
@[simp] theorem refuse_chi : (refuse e s).chi = s.chi := rfl
@[simp] theorem refuse_line : (refuse e s).line = s.line := rfl
@[simp] theorem refuse_lock : (refuse e s).lock = s.lock := rfl
@[simp] theorem refuse_pos : (refuse e s).pos = s.pos := rfl
@[simp] theorem refuse_lfsr : (refuse e s).lfsr = s.lfsr := rfl

end Sys2Proof.Machine
end

