-- ==== Sys2Proof/Laws/Flags.lean ====
section
/-! SUPPORT. What the updates of STATUS and VALID leave in each flag and bit. -/
namespace Sys2Proof.Machine

/-! ### STATUS -/

theorem getLsbD_flagBit (f g : StatusFlag) : (1#32 <<< f.bit).getLsbD g.bit = decide (g = f) := by
  cases f <;> cases g <;> decide

theorem flagBit_lt (f : StatusFlag) : f.bit < 32 := by cases f <;> decide

theorem flag_setFlag (f g : StatusFlag) (s : State) : flag (setFlag f s) g = (flag s g || decide (g = f)) := by
  simp [flag, BitVec.getLsbD_or, getLsbD_flagBit, -BitVec.getLsbD_shiftLeft]

theorem flag_clearFlag (f g : StatusFlag) (s : State) : flag (clearFlag f s) g = (flag s g && !decide (g = f)) := by
  simp only [flag, clearFlag_status, BitVec.getLsbD_and, BitVec.getLsbD_not, getLsbD_flagBit, flagBit_lt, decide_true,
    Bool.true_and]

theorem flag_putFlag (f g : StatusFlag) (b : Bool) (s : State) :
    flag (putFlag f b s) g = if g = f then b else flag s g := by
  cases b <;> by_cases h : g = f <;> simp [putFlag, flag_setFlag, flag_clearFlag, h]

@[simp] theorem flag_setValid (v : ValidBit) (g : StatusFlag) (s : State) : flag (setValid v s) g = flag s g := rfl

@[simp] theorem flag_clearValid (vs : List ValidBit) (g : StatusFlag) (s : State) :
    flag (clearValid vs s) g = flag s g := rfl

theorem flag_endCommand (g : StatusFlag) (s : State) :
    flag (endCommand s) g = (if g = .done then true else if g = .busy then false else flag s g) := by
  unfold endCommand
  rw [flag_setFlag, flag_clearFlag]
  cases g <;> simp [flag]

theorem flag_startCommand (c : Byte) (g : StatusFlag) (s : State) :
    flag (startCommand c s) g = (if g = .busy then true else if g = .done then false else flag s g) := by
  unfold startCommand
  rw [flag_setFlag, flag_clearFlag]
  cases g <;> simp [flag]

theorem flag_refuse (e : ErrFlag) (g : StatusFlag) (s : State) :
    flag (refuse e s) g = (if g = .done then true else if g = .busy then false else flag s g || decide (g = e.flag)) := by
  unfold refuse
  rw [flag_endCommand, flag_setFlag]

/-- The reserved bits of STATUS are written by no update of a flag. -/
@[simp] theorem reserved_setFlag (f : StatusFlag) (s : State) : (setFlag f s).status >>> 7 = s.status >>> 7 := by
  cases f <;> simp [StatusFlag.bit, BitVec.ushiftRight_or_distrib]

@[simp] theorem reserved_clearFlag (f : StatusFlag) (s : State) : (clearFlag f s).status >>> 7 = s.status >>> 7 := by
  have h : ∀ i < 25, (~~~(1#32 <<< f.bit)).getLsbD (7 + i) = true := by cases f <;> decide
  apply BitVec.eq_of_getLsbD_eq
  intro i hi
  simp only [clearFlag_status, BitVec.getLsbD_ushiftRight, BitVec.getLsbD_and]
  by_cases h2 : i < 25
  · rw [h i h2, Bool.and_true]
  · rw [BitVec.getLsbD_of_ge s.status _ (by omega), Bool.false_and]

@[simp] theorem reserved_putFlag (f : StatusFlag) (b : Bool) (s : State) :
    (putFlag f b s).status >>> 7 = s.status >>> 7 := by
  cases b <;> simp only [putFlag, if_true, if_false, reserved_setFlag, reserved_clearFlag, Bool.false_eq_true]

@[simp] theorem reserved_endCommand (s : State) : (endCommand s).status >>> 7 = s.status >>> 7 := by
  simp only [endCommand, reserved_setFlag, reserved_clearFlag]

@[simp] theorem reserved_startCommand (c : Byte) (s : State) : (startCommand c s).status >>> 7 = s.status >>> 7 := by
  simp only [startCommand, reserved_setFlag, reserved_clearFlag]

@[simp] theorem reserved_refuse (e : ErrFlag) (s : State) : (refuse e s).status >>> 7 = s.status >>> 7 := by
  simp only [refuse, reserved_endCommand, reserved_setFlag]

/-! ### VALID -/

theorem getLsbD_validBit (v w : ValidBit) : (1#32 <<< v.bit).getLsbD w.bit = decide (w = v) := by
  cases v <;> cases w <;> decide

theorem validBit_lt (v : ValidBit) : v.bit < 32 := by cases v <;> decide

theorem getLsbD_validWord (vs : List ValidBit) (w : ValidBit) : (validWord vs).getLsbD w.bit = decide (w ∈ vs) := by
  induction vs with
  | nil => simp [validWord]
  | cons v vs ih =>
    simp [validWord, BitVec.getLsbD_or, getLsbD_validBit, ih, -BitVec.getLsbD_shiftLeft]

theorem validBit_setValid (v w : ValidBit) (s : State) : validBit (setValid v s) w = (validBit s w || decide (w = v)) := by
  simp [validBit, BitVec.getLsbD_or, getLsbD_validBit, -BitVec.getLsbD_shiftLeft]

theorem validBit_clearValid (vs : List ValidBit) (w : ValidBit) (s : State) :
    validBit (clearValid vs s) w = (validBit s w && !decide (w ∈ vs)) := by
  simp only [validBit, clearValid_valid, BitVec.getLsbD_and, BitVec.getLsbD_not, getLsbD_validWord, validBit_lt,
    decide_true, Bool.true_and]

/-- The reserved bits of VALID are written by no update of a bit. -/
@[simp] theorem reserved_setValid (v : ValidBit) (s : State) : (setValid v s).valid >>> 6 = s.valid >>> 6 := by
  have h : (1#32 <<< v.bit) >>> 6 = 0#32 := by cases v <;> decide
  simp only [setValid_valid, BitVec.ushiftRight_or_distrib, h, BitVec.or_zero]

theorem validWord_high (vs : List ValidBit) (i : Nat) : (validWord vs).getLsbD (6 + i) = false := by
  induction vs with
  | nil => simp [validWord]
  | cons v vs ih =>
    have h : (1#32 <<< v.bit) >>> 6 = 0#32 := by cases v <;> decide
    have h2 : ((1#32 <<< v.bit) >>> 6).getLsbD i = false := by rw [h]; simp
    rw [BitVec.getLsbD_ushiftRight] at h2
    rw [validWord, BitVec.getLsbD_or, ih, h2, Bool.or_false]

@[simp] theorem reserved_clearValid (vs : List ValidBit) (s : State) :
    (clearValid vs s).valid >>> 6 = s.valid >>> 6 := by
  apply BitVec.eq_of_getLsbD_eq
  intro i hi
  simp only [clearValid_valid, BitVec.getLsbD_ushiftRight, BitVec.getLsbD_and, BitVec.getLsbD_not, validWord_high,
    Bool.not_false, Bool.and_true]
  by_cases h2 : 6 + i < 32
  · simp [h2]
  · rw [BitVec.getLsbD_of_ge s.valid _ (by omega), Bool.false_and]

@[simp] theorem validBit_setFlag (f : StatusFlag) (w : ValidBit) (s : State) : validBit (setFlag f s) w = validBit s w := rfl

@[simp] theorem validBit_clearFlag (f : StatusFlag) (w : ValidBit) (s : State) :
    validBit (clearFlag f s) w = validBit s w := rfl

@[simp] theorem validBit_putFlag (f : StatusFlag) (b : Bool) (w : ValidBit) (s : State) :
    validBit (putFlag f b s) w = validBit s w := by cases b <;> rfl

@[simp] theorem validBit_endCommand (w : ValidBit) (s : State) : validBit (endCommand s) w = validBit s w := rfl

@[simp] theorem validBit_startCommand (c : Byte) (w : ValidBit) (s : State) :
    validBit (startCommand c s) w = validBit s w := rfl

@[simp] theorem validBit_refuse (e : ErrFlag) (w : ValidBit) (s : State) : validBit (refuse e s) w = validBit s w := rfl

/-! ### CONFIG -/

@[simp] theorem family_endCommand (s : State) : family (endCommand s) = family s := rfl

@[simp] theorem family_startCommand (c : Byte) (s : State) : family (startCommand c s) = family s := rfl

@[simp] theorem family_refuse (e : ErrFlag) (s : State) : family (refuse e s) = family s := rfl

@[simp] theorem channel_endCommand (s : State) : channel (endCommand s) = channel s := rfl

@[simp] theorem channel_startCommand (c : Byte) (s : State) : channel (startCommand c s) = channel s := rfl

@[simp] theorem channel_refuse (e : ErrFlag) (s : State) : channel (refuse e s) = channel s := rfl

end Sys2Proof.Machine
end

