-- ==== Sys2Proof/Laws/Lfsr.lean ====
section
/-! SUPPORT. What generating the derandomization table leaves, said once (R171, R172, R174). -/
namespace Sys2Proof.Machine

/-- Shifting `m` more times from the register after `n` shifts. -/
theorem iterate_lfsrShift (m n : Nat) : lfsrShift^[m] (lfsrAfter n) = lfsrAfter (n + m) := by
  induction m generalizing n with
  | zero => rfl
  | succ m ih =>
    rw [Function.iterate_succ_apply, show lfsrShift (lfsrAfter n) = lfsrAfter (n + 1) from rfl, ih,
      Nat.add_right_comm, Nat.add_assoc]

/-- The register after collecting `n` output bits. -/
theorem lfsrCollect_register (n : Nat) (r v : Byte) : (lfsrCollect n r v).1 = lfsrShift^[n] r := by
  induction n generalizing r v with
  | zero => rfl
  | succ n ih => rw [lfsrCollect, ih, Function.iterate_succ_apply]

theorem lfsrBytes_length (n : Nat) (r : Byte) : (lfsrBytes n r).2.length = n := by
  induction n generalizing r with
  | zero => rfl
  | succ n ih => simp [lfsrBytes, ih]

/-- Byte `k` of the output generated from the register after `8 m` shifts is `DrByte(m + k)` (R171). -/
theorem lfsrBytes_get (n m k : Nat) (h : k < n) : (lfsrBytes n (lfsrAfter (8 * m))).2[k]? = some (drByte (m + k)) := by
  induction n generalizing m k with
  | zero => omega
  | succ n ih =>
    simp only [lfsrBytes]
    cases k with
    | zero => simp [drByte]
    | succ k =>
      have e : (lfsrByte (lfsrAfter (8 * m))).1 = lfsrAfter (8 * (m + 1)) := by
        rw [lfsrByte, lfsrCollect_register, iterate_lfsrShift, Nat.mul_add]
      rw [e, List.getElem?_cons_succ, ih (m + 1) k (by omega), Nat.add_right_comm, Nat.add_assoc]

/-- The table that is generated has 1024 entries. -/
theorem drGenerate_length : drGenerate.2.length = 1024 := by simp [drGenerate, lfsrBytes_length]

/-- Its entries are four zeros and then the output bytes from the seed (R172). -/
theorem drGenerate_get (i : Nat) (h : i < 1024) :
    drGenerate.2[i]? = some (if i < 4 then 0x00#8 else drByte (i - 4)) := by
  unfold drGenerate
  simp only
  by_cases h4 : i < 4
  · rw [if_pos h4, List.getElem?_append_left (by simpa using h4)]
    match i, h4 with
    | 0, _ => rfl
    | 1, _ => rfl
    | 2, _ => rfl
    | 3, _ => rfl
  · rw [if_neg h4, List.getElem?_append_right (by simp; omega)]
    have e := lfsrBytes_get 1020 0 (i - 4) (by omega)
    simpa [lfsrAfter] using e

end Sys2Proof.Machine
end

