-- ==== Sys2Proof/Laws/Memory.lean ====
section
/-! SUPPORT. The laws of buffers: a read after a write, and every operation keeps the canonical form. -/
namespace Sys2Proof.Machine

variable {α : Type}

@[simp] theorem Memory.read_nil (k : Nat) : Memory.read ([] : Memory α) k = none := rfl

theorem Memory.read_cons (i : Nat) (v : α) (m : Memory α) (k : Nat) :
    Memory.read ((i, v) :: m) k = if i = k then some v else Memory.read m k := rfl

/-- A read of the index just written gives the value written. -/
@[simp] theorem Memory.read_write_same (m : Memory α) (k : Nat) (v : α) :
    Memory.read (Memory.write m k v) k = some v := by
  induction m with
  | nil => simp [Memory.write, Memory.read]
  | cons e m ih =>
    obtain ⟨i, w⟩ := e
    unfold Memory.write
    split
    · simp [Memory.read]
    · split
      · simp [Memory.read]
      · rename_i h
        simp [Memory.read, h, ih]

/-- A write leaves every other index alone. -/
theorem Memory.read_write_other (m : Memory α) {k j : Nat} (v : α) (h : j ≠ k) :
    Memory.read (Memory.write m k v) j = Memory.read m j := by
  induction m with
  | nil => simp [Memory.write, Memory.read, h.symm]
  | cons e m ih =>
    obtain ⟨i, w⟩ := e
    unfold Memory.write
    split
    · simp [Memory.read, h.symm]
    · split
      · rename_i h2
        subst h2
        simp [Memory.read, h.symm]
      · simp [Memory.read, ih]

/-- `MemWrite` leaves every index outside the written run alone. -/
theorem Memory.read_writeList_outside (vs : List α) (m : Memory α) (a k : Nat)
    (h : k < a ∨ a + vs.length ≤ k) : Memory.read (Memory.writeList m a vs) k = Memory.read m k := by
  induction vs generalizing m a with
  | nil => rfl
  | cons v vs ih =>
    simp only [List.length_cons] at h
    rw [Memory.writeList, ih _ _ (by omega), Memory.read_write_other _ _ (by omega)]

/-- `MemWrite` puts element `j` of its list at index `a + j`. -/
theorem Memory.read_writeList_inside (vs : List α) (m : Memory α) (a j : Nat) (h : j < vs.length) :
    Memory.read (Memory.writeList m a vs) (a + j) = some vs[j] := by
  induction vs generalizing m a j with
  | nil => simp at h
  | cons v vs ih =>
    cases j with
    | zero => rw [Memory.writeList, Memory.read_writeList_outside _ _ _ _ (by omega)]; simp
    | succ j =>
      have hj : j < vs.length := by simpa using h
      rw [Memory.writeList, show a + (j + 1) = (a + 1) + j by omega, ih _ _ _ hj]
      simp

theorem Memory.read_enumFrom (vs : List α) (a k : Nat) :
    Memory.read (Memory.enumFrom a vs) k = if a ≤ k then vs[k - a]? else none := by
  induction vs generalizing a with
  | nil => simp [Memory.enumFrom]
  | cons v vs ih =>
    rw [Memory.enumFrom, Memory.read_cons, ih]
    by_cases h1 : a = k
    · subst h1; simp
    · by_cases h2 : a ≤ k
      · rw [if_neg h1, if_pos (by omega), if_pos h2, show k - a = (k - (a + 1)) + 1 by omega]
        simp
      · rw [if_neg h1, if_neg (by omega), if_neg h2]

/-- A buffer made of a list holds element `k` of the list at index `k`, and nothing beyond. -/
@[simp] theorem Memory.read_ofList (vs : List α) (k : Nat) : Memory.read (Memory.ofList vs) k = vs[k]? := by
  simp [Memory.ofList, Memory.read_enumFrom]

/-! ### The canonical form -/

theorem Memory.wf_cons_cons (i j : Nat) (v w : α) (m : Memory α) :
    Memory.wf ((i, v) :: (j, w) :: m) = true ↔ i < j ∧ Memory.wf ((j, w) :: m) = true := by
  simp [Memory.wf]

theorem Memory.wf_tail {e : Nat × α} {m : Memory α} (h : Memory.wf (e :: m) = true) : Memory.wf m = true := by
  cases m with
  | nil => rfl
  | cons e2 m => exact ((Memory.wf_cons_cons e.1 e2.1 e.2 e2.2 m).1 h).2

theorem Memory.wf_cons_write (i k : Nat) (w v : α) (m : Memory α) (hik : i < k)
    (h : Memory.wf ((i, w) :: m) = true) (ih : Memory.wf (Memory.write m k v) = true) :
    Memory.wf ((i, w) :: Memory.write m k v) = true := by
  cases m with
  | nil => simp [Memory.write, Memory.wf, hik]
  | cons e m =>
    obtain ⟨j, x⟩ := e
    obtain ⟨hij, ht⟩ := (Memory.wf_cons_cons i j w x m).1 h
    by_cases h1 : k < j
    · simp only [Memory.write, if_pos h1] at ih ⊢
      exact (Memory.wf_cons_cons _ _ _ _ _).2 ⟨hik, ih⟩
    · by_cases h2 : j = k
      · simp only [Memory.write, if_neg h1, if_pos h2] at ih ⊢
        exact (Memory.wf_cons_cons _ _ _ _ _).2 ⟨hik, ih⟩
      · simp only [Memory.write, if_neg h1, if_neg h2] at ih ⊢
        exact (Memory.wf_cons_cons _ _ _ _ _).2 ⟨hij, ih⟩

/-- A write keeps the canonical form. -/
theorem Memory.wf_write (m : Memory α) (k : Nat) (v : α) (h : Memory.wf m = true) :
    Memory.wf (Memory.write m k v) = true := by
  induction m with
  | nil => rfl
  | cons e m ih =>
    obtain ⟨i, w⟩ := e
    have ih' := ih (Memory.wf_tail h)
    have hw := Memory.wf_cons_write i k w v m
    unfold Memory.write
    split
    · exact (Memory.wf_cons_cons _ _ _ _ _).2 ⟨by assumption, h⟩
    · split
      · rename_i h2
        subst h2
        cases m with
        | nil => rfl
        | cons e2 m => exact h
      · exact hw (by omega) h ih'

/-- `MemWrite` keeps the canonical form. -/
theorem Memory.wf_writeList (vs : List α) (m : Memory α) (a : Nat) (h : Memory.wf m = true) :
    Memory.wf (Memory.writeList m a vs) = true := by
  induction vs generalizing m a with
  | nil => exact h
  | cons v vs ih => exact ih _ _ (Memory.wf_write m a v h)

theorem Memory.wf_enumFrom (vs : List α) (a : Nat) : Memory.wf (Memory.enumFrom a vs) = true := by
  induction vs generalizing a with
  | nil => rfl
  | cons v vs ih =>
    cases vs with
    | nil => rfl
    | cons w vs => exact (Memory.wf_cons_cons _ _ _ _ _).2 ⟨by omega, ih (a + 1)⟩

/-- A buffer made of a list is in canonical form. -/
@[simp] theorem Memory.wf_ofList (vs : List α) : Memory.wf (Memory.ofList vs) = true := Memory.wf_enumFrom vs 0

/-- In a canonical buffer, an index below every entry is not listed. -/
theorem Memory.read_below {m : Memory α} {i k : Nat} {w : α} (h : Memory.wf ((i, w) :: m) = true) (hk : k ≤ i) :
    Memory.read m k = none := by
  induction m generalizing i w with
  | nil => rfl
  | cons e m ih =>
    obtain ⟨j, x⟩ := e
    obtain ⟨hij, ht⟩ := (Memory.wf_cons_cons i j w x m).1 h
    rw [Memory.read_cons, if_neg (by omega)]
    exact ih ht (by omega)

/-- Writing what is there already changes nothing. -/
theorem Memory.write_of_read (m : Memory α) (k : Nat) (v : α) (h : Memory.wf m = true)
    (hr : Memory.read m k = some v) : Memory.write m k v = m := by
  induction m with
  | nil => simp at hr
  | cons e m ih =>
    obtain ⟨i, w⟩ := e
    rw [Memory.read_cons] at hr
    unfold Memory.write
    by_cases h1 : i = k
    · subst h1
      simp_all
    · rw [if_neg h1] at hr
      by_cases h2 : k < i
      · rw [Memory.read_below h (by omega)] at hr
        simp at hr
      · rw [if_neg h2, if_neg h1, ih (Memory.wf_tail h) hr]

end Sys2Proof.Machine
end

