-- ==== Sys2Proof/Laws/Operands.lean ====
section
/-! SUPPORT. What the operand forms read, said once for each. -/
namespace Sys2Proof.Machine

/-! ### The line decoder's table -/

theorem ldLookup_of_mem (g : Byte → Byte → Byte) (a b : Byte) (l : List (Byte × Byte × Byte))
    (hv : ∀ e ∈ l, e.2.2 = g e.1 e.2.1) (hm : ∃ e ∈ l, e.1 = a ∧ e.2.1 = b) : ldLookup a b l = some (g a b) := by
  induction l with
  | nil => simp at hm
  | cons e l ih =>
    obtain ⟨x, y, v⟩ := e
    rw [ldLookup]
    split
    · next h =>
      have := hv (x, y, v) (by simp)
      simp only at this
      rw [this, h.1, h.2]
    · next h =>
      refine ih (fun e he => hv e (by simp [he])) ?_
      obtain ⟨e, he, h1⟩ := hm
      rcases List.mem_cons.1 he with rfl | h2
      · exact absurd h1 h
      · exact ⟨e, h2, h1⟩

theorem ldTable_of_range (g : Byte → Byte → Byte) (n : Nat) (hn : 65536 ≤ n) (a b : Byte) :
    ldPair ⟨(List.range n).map fun k => (BitVec.ofNat 8 (k / 256), BitVec.ofNat 8 (k % 256),
      g (BitVec.ofNat 8 (k / 256)) (BitVec.ofNat 8 (k % 256)))⟩ a b = g a b := by
  rw [ldPair, ldLookup_of_mem g a b]
  · rfl
  · intro e he
    obtain ⟨k, -, rfl⟩ := List.mem_map.1 he
    rfl
  · have ha := a.isLt
    have hb := b.isLt
    refine ⟨_, List.mem_map.2 ⟨256 * a.toNat + b.toNat, List.mem_range.2 (by omega), rfl⟩, ?_, ?_⟩
    · apply BitVec.eq_of_toNat_eq
      simp only [BitVec.toNat_ofNat]
      omega
    · apply BitVec.eq_of_toNat_eq
      simp only [BitVec.toNat_ofNat]
      omega

/-- Every total function on byte pairs is some `LD_TABLE` (R131, U6). -/
theorem ldTable_represents (g : Byte → Byte → Byte) : ∃ t : LdTable, ∀ a b, ldPair t a b = g a b := by
  obtain ⟨n, hn⟩ : ∃ n : Nat, 65536 ≤ n := ⟨65536, Nat.le_refl _⟩
  exact ⟨_, fun a b => ldTable_of_range g n hn a b⟩

/-! ### Bytes of the BitSequence -/

theorem byteAt_bits : ∀ b0 b1 b2 b3 b4 b5 b6 b7 : Bool,
    let v := BitVec.ofNat 8 (bitNat b0 <<< 7 + (bitNat b1 <<< 6 + (bitNat b2 <<< 5 + (bitNat b3 <<< 4 +
      (bitNat b4 <<< 3 + (bitNat b5 <<< 2 + (bitNat b6 <<< 1 + (bitNat b7 <<< 0 + 0))))))))
    v.getLsbD 7 = b0 ∧ v.getLsbD 6 = b1 ∧ v.getLsbD 5 = b2 ∧ v.getLsbD 4 = b3 ∧
    v.getLsbD 3 = b4 ∧ v.getLsbD 2 = b5 ∧ v.getLsbD 1 = b6 ∧ v.getLsbD 0 = b7 := by decide

/-- Bit `7 - j` of an assembled byte is bit `o + j` of the sequence (R122). -/
theorem getLsbD_byteAt (S : Nat → Bool) (o j : Nat) (hj : j < 8) : (byteAt S o).getLsbD (7 - j) = S (o + j) := by
  have h := byteAt_bits (S (o + 0)) (S (o + 1)) (S (o + 2)) (S (o + 3)) (S (o + 4)) (S (o + 5)) (S (o + 6)) (S (o + 7))
  have e : byteAt S o = _ := show BitVec.ofNat 8 _ = BitVec.ofNat 8 (bitNat (S (o + 0)) <<< 7 +
    (bitNat (S (o + 1)) <<< 6 + (bitNat (S (o + 2)) <<< 5 + (bitNat (S (o + 3)) <<< 4 + (bitNat (S (o + 4)) <<< 3 +
    (bitNat (S (o + 5)) <<< 2 + (bitNat (S (o + 6)) <<< 1 + (bitNat (S (o + 7)) <<< 0 + 0)))))))) from rfl
  rw [e]
  obtain ⟨h0, h1, h2, h3, h4, h5, h6, h7⟩ := h
  match j, hj with
  | 0, _ => exact h0
  | 1, _ => exact h1
  | 2, _ => exact h2
  | 3, _ => exact h3
  | 4, _ => exact h4
  | 5, _ => exact h5
  | 6, _ => exact h6
  | 7, _ => exact h7

/-! ### Samples -/

/-- A sample of the word form is below 1024 (R205). -/
theorem sample16_lt (order : WordOrder) (B : Nat → Byte) (a i : Nat) : sample16 order B a i < 1024 := by
  unfold sample16
  rw [BitVec.toNat_and]
  exact Nat.lt_of_le_of_lt Nat.and_le_right (by decide)

/-- A sample of the packed form is below 1024 (R200). -/
theorem sample10_lt (B : Nat → Byte) (a i : Nat) : sample10 B a i < 1024 := by
  have hb : ∀ n, (B n).toNat < 256 := fun n => (B n).isLt
  unfold sample10
  simp only
  split
  · refine Nat.or_lt_two_pow (n := 10) ?_ ?_
    · have := hb (a + 5 * (i / 4) + 0); rw [Nat.shiftLeft_eq]; omega
    · have := hb (a + 5 * (i / 4) + 1); rw [Nat.shiftRight_eq_div_pow]; omega
  · refine Nat.or_lt_two_pow (n := 10) ?_ ?_
    · have := hb (a + 5 * (i / 4) + 1); rw [Nat.shiftLeft_eq]; omega
    · have := hb (a + 5 * (i / 4) + 2); rw [Nat.shiftRight_eq_div_pow]; omega
  · refine Nat.or_lt_two_pow (n := 10) ?_ ?_
    · have := hb (a + 5 * (i / 4) + 2); rw [Nat.shiftLeft_eq]; omega
    · have := hb (a + 5 * (i / 4) + 3); rw [Nat.shiftRight_eq_div_pow]; omega
  · refine Nat.or_lt_two_pow (n := 10) ?_ ?_
    · have := hb (a + 5 * (i / 4) + 3); rw [Nat.shiftLeft_eq]; omega
    · have := hb (a + 5 * (i / 4) + 4); omega

end Sys2Proof.Machine
end

