-- ==== Sys2Proof/Laws/Ops.lean ====
section
/-! SUPPORT. What the shared operations can do, said once: a command, a refusal, a host access, a move. -/
namespace Sys2Proof.Machine

/-! ### Commands -/

/-- A command either is refused, and then only that, or ends with its result. -/
theorem command_next_iff (r : Option ErrFlag) (t s u : State) :
    command r t s = .next u ↔ (∃ f, r = some f ∧ u = refuse f s) ∨ (r = none ∧ u = endCommand t) := by
  cases r <;> simp [command, eq_comm]

/-- Every meaning is a command made of its checks and its result. -/
theorem exec_eq_command (i : Instr) (s : State) : exec i s = command (refusalOf i s) (resultOf i s) s := by
  cases i <;> rfl

/-- What a command can do. -/
theorem exec_next_iff (i : Instr) (s u : State) :
    exec i s = .next u ↔
      (∃ f, refusalOf i s = some f ∧ u = refuse f s) ∨ (refusalOf i s = none ∧ u = endCommand (resultOf i s)) := by
  rw [exec_eq_command, command_next_iff]

/-! ### What the storing operations leave -/

theorem putDemux_reads (bytes : List Byte) (boundaries : List Nat) (s : State) :
    (putDemux bytes boundaries s).dmxLen = bytes.length ∧
    (putDemux bytes boundaries s).bndCount = boundaries.length ∧
    (∀ k, Memory.read (putDemux bytes boundaries s).dmx k = bytes[k]?) ∧
    (∀ k, Memory.read (putDemux bytes boundaries s).bnd k = boundaries[k]?) := by
  simp [putDemux]

theorem putPix_reads (samples : List Half) (s : State) :
    (putPix samples s).pixLen = samples.length ∧ (∀ k, Memory.read (putPix samples s).pix k = samples[k]?) := by
  simp [putPix]

theorem ldecResult_reads (s : State) :
    (ldecResult s).ldbLen = s.capLen / 2 ∧ (∀ k, Memory.read (ldecResult s).ldb k = (ldecBytes s)[k]?) := by
  simp [ldecResult]

theorem syncResultIn_reads (f : Family) (s : State) :
    (syncResultIn f s).fsCount = (sourcePass s f).found.length ∧
    (∀ k, Memory.read (syncResultIn f s).fs k = (sourcePass s f).found[k]?) ∧
    (syncResultIn f s).lock = (sourcePass s f).lock ∧ (syncResultIn f s).pos = (sourcePass s f).pos := by
  simp [syncResultIn]

/-! ### The loop of SYNC -/

/-- A position that is not admitted ends the pass (R150). -/
theorem syncLoop_stop (k : FamilyConsts) (dist : Nat → Nat) (n fuel pos : Nat) (L : FrameLock)
    (h : admitted k n pos = false) : syncLoop k dist n fuel pos L = { found := [], lock := L, pos := pos } := by
  cases fuel <;> simp [syncLoop, h]

/-- An admitted position is judged, and the pass goes on from the next cursor (R151, R152). -/
theorem syncLoop_next (k : FamilyConsts) (dist : Nat → Nat) (n fuel pos : Nat) (L : FrameLock)
    (h : admitted k n pos = true) :
    syncLoop k dist n (fuel + 1) pos L =
      { syncLoop k dist n fuel (pos + scanStep k (syStep k L (dist pos)).st) (syStep k L (dist pos)) with
        found := (if accepted k L (dist pos) then [pos] else []) ++
          (syncLoop k dist n fuel (pos + scanStep k (syStep k L (dist pos)).st) (syStep k L (dist pos))).found } := by
  simp only [syncLoop, h, if_true]
  split <;> simp

/-! ### The host's accesses -/

/-- What a write of CONFIG can do: the word is stored under its mask, and VALID is kept where FAMILY is, else cleared. -/
theorem writeConfig_eq (w : Word) (s : State) :
    writeConfig w s = { s with
      config := w &&& configMask
      valid := if familyField (w &&& configMask) = familyField s.config then s.valid
        else (clearValid ValidBit.all s).valid } := by
  unfold writeConfig
  split <;> rfl

/-- What a write of a register by its number can do: a command starts, one host-writable register changes, or (a
read-only register) nothing does. -/
theorem writeRegister_next {n : Nat} {v : Dword} {s t : State} (h : writeRegister n v s = .next t) :
    (n = 0x00 ∧ t = startCommand (v.setWidth 8) s) ∨ (n = 0x02 ∧ t = writeConfig (v.setWidth 32) s) ∨
    (n = 0x04 ∧ t = writeCapLen v.toNat s) ∨ (n = 0x0A ∧ t = { s with lineCount := v.toNat }) ∨
    (n = 0x0D ∧ t = { s with argBase := v.toNat }) ∨ (n = 0x0E ∧ t = { s with argRow := v.toNat }) ∨
    (n = 0x0F ∧ t = { s with argCount := v.toNat }) ∨ t = s := by
  unfold writeRegister at h
  split at h
  · unfold writeCmd at h
    split at h <;> cases h
    exact .inl ⟨rfl, rfl⟩
  · split at h <;> cases h
    exact .inr (.inl ⟨rfl, rfl⟩)
  · cases h; exact .inr (.inr (.inl ⟨rfl, rfl⟩))
  · cases h; exact .inr (.inr (.inr (.inl ⟨rfl, rfl⟩)))
  · cases h; exact .inr (.inr (.inr (.inr (.inl ⟨rfl, rfl⟩))))
  · cases h; exact .inr (.inr (.inr (.inr (.inr (.inl ⟨rfl, rfl⟩)))))
  · cases h; exact .inr (.inr (.inr (.inr (.inr (.inr (.inl ⟨rfl, rfl⟩))))))
  · split at h <;> cases h
    exact .inr (.inr (.inr (.inr (.inr (.inr (.inr rfl))))))

/-- What a host access can do: wait, have no effect, or, while idle, be one of the writes. -/
theorem hostAccess_next {a : HostAccess} {rest : List HostAccess} {s t : State} (h : hostAccess a rest s = .next t) :
    t = s ∨ t = { s with host := rest } ∨
    (flag s .busy = false ∧
      ((∃ n v, a = .writeReg n v ∧ writeRegister n v { s with host := rest } = .next t) ∨
        (∃ v, a = .writeFamily v ∧ t = writeFamilyField v { s with host := rest }) ∨
        (∃ v, a = .writePassdir v ∧ t = writePassdirField v { s with host := rest }) ∨
        (∃ v, a = .writeChannel v ∧ t = writeChannelField v { s with host := rest }) ∨
        (∃ k v, a = .writeCap k v ∧ t = { s with host := rest, cap := Memory.write s.cap k v }) ∨
        (∃ k v, a = .writeLine k v ∧ t = { s with host := rest, line := Memory.write s.line k v.toNat }))) := by
  unfold hostAccess at h
  split at h
  · unfold busyAccess at h
    split at h <;> cases h <;> simp
  next hb =>
    have hb : flag s .busy = false := by simpa using hb
    unfold idleAccess at h
    split at h
    · exact .inr (.inr ⟨hb, .inl ⟨_, _, rfl, h⟩⟩)
    · cases h; exact .inr (.inr ⟨hb, .inr (.inl ⟨_, rfl, rfl⟩)⟩)
    · cases h; exact .inr (.inr ⟨hb, .inr (.inr (.inl ⟨_, rfl, rfl⟩))⟩)
    · cases h; exact .inr (.inr ⟨hb, .inr (.inr (.inr (.inl ⟨_, rfl, rfl⟩)))⟩)
    · cases h; exact .inr (.inr ⟨hb, .inr (.inr (.inr (.inr (.inl ⟨_, _, rfl, rfl⟩))))⟩)
    · cases h; exact .inr (.inr ⟨hb, .inr (.inr (.inr (.inr (.inr ⟨_, _, rfl, rfl⟩))))⟩)
    · split at h <;> cases h
      exact .inr (.inl rfl)
    · cases h; exact .inr (.inl rfl)
    · split at h <;> cases h <;> simp
    · cases h; exact .inr (.inl rfl)

/-! ### Moves -/

/-- A machine whose record is a configuration moves. -/
theorem step_of_wf {s : State} (h : s.cfg.wf = true) : step s = move s := by simp [step, admittedMove, h]

/-- A step that answers a next state has a record that is a configuration, and is a move. -/
theorem step_next {s t : State} (h : step s = .next t) : s.cfg.wf = true ∧ move s = .next t := by
  unfold step admittedMove at h
  split at h
  · exact ⟨by assumption, h⟩
  · cases h

/-- The host makes no access: it has none pending, or a command is in progress and the next one has to wait. -/
theorem nextAccess_eq_none_iff (s : State) :
    nextAccess s = none ↔
      s.host = [] ∨ ∃ a rest, s.host = a :: rest ∧ s.cmd.isSome = true ∧ madeWhileBusy a = false := by
  cases h : s.host <;> simp [nextAccess, h]

/-- The host makes an access: it is the first pending, and no command is in progress or the access may be made then. -/
theorem nextAccess_eq_some_iff (s : State) (a : HostAccess) (rest : List HostAccess) :
    nextAccess s = some (a, rest) ↔ s.host = a :: rest ∧ (s.cmd = none ∨ madeWhileBusy a = true) := by
  cases h : s.host with
  | nil => simp [nextAccess, h]
  | cons b tail =>
    by_cases hw : s.cmd.isSome = true ∧ madeWhileBusy b = false
    · have hc : s.cmd ≠ none := Option.isSome_iff_ne_none.1 hw.1
      simp only [nextAccess, h, hw.1, hw.2, Bool.not_false, Bool.and_self, if_true]
      constructor
      · intro h'; cases h'
      · rintro ⟨h', h''⟩
        cases h'
        rcases h'' with h'' | h''
        · exact absurd h'' hc
        · simp [hw.2] at h''
    · have hn : (s.cmd.isSome && !madeWhileBusy b) = false := by
        simpa using hw
      simp only [nextAccess, h, hn, Bool.false_eq_true, if_false, Option.some.injEq, Prod.mk.injEq]
      constructor
      · rintro ⟨rfl, rfl⟩
        refine ⟨rfl, ?_⟩
        cases hb : madeWhileBusy b
        · exact .inl (by simpa [hb] using hn)
        · exact .inr rfl
      · rintro ⟨h', -⟩
        cases h'
        exact ⟨rfl, rfl⟩

/-- Every move is one of three: the host's next access is made, the held code is run, or nothing happens. -/
theorem move_cases (s : State) :
    (∃ a rest, nextAccess s = some (a, rest) ∧ move s = hostAccess a rest s) ∨
    (∃ code, nextAccess s = none ∧ s.cmd = some code ∧ move s = runHeld code s) ∨
    (nextAccess s = none ∧ s.cmd = none ∧ move s = .next s) := by
  rcases hn : nextAccess s with _ | ⟨a, rest⟩
  · rcases hc : s.cmd with _ | code
    · exact .inr (.inr ⟨rfl, rfl, by simp [move, hn, hc]⟩)
    · exact .inr (.inl ⟨code, rfl, rfl, by simp [move, hn, hc]⟩)
  · exact .inl ⟨a, rest, rfl, by simp [move, hn]⟩

/-- Running a held code: a command of the map, or a refusal with ERR_CMD. -/
theorem runHeld_cases (code : Byte) (s : State) :
    (∃ i, decodeCommand code = .ok i ∧ runHeld code s = exec i s) ∨
    (∃ e, decodeCommand code = .error e ∧ runHeld code s = .next (refuse .errCmd s)) := by
  unfold runHeld
  split
  · next i h => exact .inl ⟨i, h, rfl⟩
  · next e h => exact .inr ⟨e, h, rfl⟩

end Sys2Proof.Machine
end

