-- ==== Sys2Proof/Laws/Parameters.lean ====
section
/-! SUPPORT. What an admitted configuration record gives (R8, R9), so that no later proof unfolds the checks. -/
namespace Sys2Proof.Machine

theorem wf_direct {c : Config} (h : c.wf = true) : directAdmits c.d = true := by
  simp only [Config.wf, admits, Bool.and_eq_true] at h
  exact h.1

theorem wf_transport {c : Config} (h : c.wf = true) {f : Family} (hf : f ≠ .d) :
    transportAdmits (c.family f) = true := by
  simp only [Config.wf, admits, Bool.and_eq_true] at h
  cases f with
  | d => exact absurd rfl hf
  | m => exact h.2.1
  | c => exact h.2.2.1

/-- R8: the pinned rows of family D (log 3). -/
theorem directAdmits_values {k : FamilyConsts} (h : directAdmits k = true) :
    k.w = 96 ∧ k.unit = 16 ∧ k.locking = false ∧ k.t0 = 0 ∧ k.mult = 40 ∧ k.marker < 2 ^ k.w ∧
      k.w ≤ k.strideBits := by
  simp only [directAdmits, directSourceValues, markerFits, Bool.and_eq_true, decide_eq_true_eq, Bool.not_eq_true'] at h
  tauto

/-- R8: the pinned rows of the transport families (log 3). -/
theorem transportAdmits_values {k : FamilyConsts} (h : transportAdmits k = true) :
    k.w = 32 ∧ k.unit = 1 ∧ k.locking = true ∧ k.nGood = 5 ∧ k.nBad = 5 ∧ k.nSlip = 2 ∧ k.mult = 60 ∧
      k.marker < 2 ^ k.w ∧ k.w ≤ k.strideBits := by
  simp only [transportAdmits, transportSourceValues, markerFits, Bool.and_eq_true, decide_eq_true_eq] at h
  tauto

/-- R9: the order of the thresholds and the budget in the transport families. -/
theorem transportAdmits_bounds {k : FamilyConsts} (h : transportAdmits k = true) :
    k.t0 ≤ k.t2 ∧ k.t2 ≤ k.t1 ∧ k.t1 ≤ k.t3 ∧ k.t3 ≤ k.w ∧ 1 ≤ k.resyncBudget := by
  simp only [transportAdmits, thresholdsOrdered, budgetPositive, Bool.and_eq_true, decide_eq_true_eq] at h
  tauto

/-- R8, R9: both scan steps of every family are positive, and the marker fits in the stride. -/
theorem wf_scan_steps {c : Config} (h : c.wf = true) (f : Family) :
    1 ≤ (c.family f).unit ∧ 1 ≤ (c.family f).strideBits ∧ (c.family f).w ≤ (c.family f).strideBits := by
  by_cases hf : f = .d
  · subst hf
    have := directAdmits_values (wf_direct h)
    simp only [Config.family]
    omega
  · have := transportAdmits_values (wf_transport h hf)
    omega

end Sys2Proof.Machine
end

