-- ==== Sys2Proof/Laws/PerInstr.lean ====
section
/-! SUPPORT. Facts about every command as syntax, one lemma per constructor. -/
namespace Sys2Proof.Laws.CommandWord

/-- A command is well formed and its word is exactly one byte (R90), the code of its row of the map (R92). -/
def Statement (i : Instr) : Prop := i.wf = true ∧ ∃ code, encode i = [code] ∧ (code, i) ∈ commandMap

theorem nop : Statement .nop := ⟨rfl, 0x00#8, rfl, by decide⟩
theorem reset : Statement .reset := ⟨rfl, 0x01#8, rfl, by decide⟩
theorem drgen : Statement .drgen := ⟨rfl, 0x02#8, rfl, by decide⟩
theorem ldec : Statement .ldec := ⟨rfl, 0x10#8, rfl, by decide⟩
theorem sync : Statement .sync := ⟨rfl, 0x20#8, rfl, by decide⟩
theorem demuxd : Statement .demuxd := ⟨rfl, 0x30#8, rfl, by decide⟩
theorem demuxm : Statement .demuxm := ⟨rfl, 0x31#8, rfl, by decide⟩
theorem spans : Statement .spans := ⟨rfl, 0x32#8, rfl, by decide⟩
theorem unpk10 : Statement .unpk10 := ⟨rfl, 0x40#8, rfl, by decide⟩
theorem unpk16 : Statement .unpk16 := ⟨rfl, 0x41#8, rfl, by decide⟩
theorem chsel : Statement .chsel := ⟨rfl, 0x42#8, rfl, by decide⟩
theorem decch : Statement .decch := ⟨rfl, 0x43#8, rfl, by decide⟩

end Sys2Proof.Laws.CommandWord
end

