-- ==== Sys2Proof/Laws/Reset.lean ====
section
/-! SUPPORT. The state after reset: its buffers are in canonical form and its table is the table of R172. -/
namespace Sys2Proof.Machine

/-- The buffers of a block just reset are in canonical form, whatever its family constants. -/
theorem memoryWf_resetWith (c : Config) : memoryWf (State.resetWith c) = true := by
  simp [memoryWf, State.resetWith, Memory.wf]

/-- The buffers after power-on reset are in canonical form. -/
theorem memoryWf_reset : memoryWf State.reset = true := memoryWf_resetWith _

/-- DRT of a block just reset (R42, R172). -/
theorem drt_resetWith (c : Config) (i : Nat) (h : i < 1024) :
    Memory.read (State.resetWith c).drt i = some (tableEntry i) := by
  rw [State.resetWith, Memory.read_ofList, drGenerate_get i h, tableEntry]

end Sys2Proof.Machine
end

