-- ==== Sys2Proof/Tests/Slice0.lean ====
section
/-! SUPPORT. Tests of the model: ill-formed records, command words, single steps with the expectations of
spec/95_test_vectors.md, and for every obligation with hypotheses a state and operands that meet them. -/
namespace Sys2Proof.Tests
open Sys2Proof.Machine

/-! ### Helpers -/

/-- A part of the state after a command, if it answers a next state. -/
def after {α : Type} (i : Instr) (s : State) (f : State → α) : Option α :=
  match exec i s with
  | .next t => some (f t)
  | _ => none

/-- A block just reset, with CONFIG and VALID set. -/
def block (c : Config) (config valid : Word) : State := { State.resetWith c with config := config, valid := valid }

/-- A block with a code in progress. -/
def busy (code : Byte) (host : List HostAccess) : State :=
  { State.reset with cmd := some code, status := 0x00000001#32, host := host }

/-- An idle block whose host makes one access. -/
def host (a : HostAccess) : State := { State.reset with host := [a] }

/-- The configurations of R10 used here: TINY with SMALL, and TINY-D. -/
def ts : Config := Config.tiny.small

/-! ### Well-formed records: the named ones are admitted, one ill-formed record for each check is refused -/

theorem test_wf_reference : Config.reference.wf = true := by decide
theorem test_wf_tiny : Config.tiny.wf = true ∧ ts.wf = true ∧ Config.reference.small.wf = true := by decide
theorem test_wf_tinyD : Config.tinyD.wf = true := by decide
theorem test_ill_threshold_order : ({ ts with m := { ts.m with t2 := 5 } } : Config).wf = false := by decide
theorem test_ill_threshold_width : ({ ts with c := { ts.c with t3 := 33 } } : Config).wf = false := by decide
theorem test_ill_budget : ({ ts with m := { ts.m with resyncBudget := 0 } } : Config).wf = false := by decide
theorem test_ill_marker : ({ ts with m := { ts.m with marker := 2 ^ 32 } } : Config).wf = false := by decide
theorem test_ill_stride : ({ ts with d := { ts.d with strideBits := 95 } } : Config).wf = false := by decide
theorem test_ill_transport_unit : ({ ts with m := { ts.m with unit := 16 } } : Config).wf = false := by decide
theorem test_ill_transport_locking : ({ ts with c := { ts.c with locking := false } } : Config).wf = false := by decide
theorem test_ill_direct_locking : ({ ts with d := { ts.d with locking := true } } : Config).wf = false := by decide
theorem test_ill_direct_t0 : ({ ts with d := { ts.d with t0 := 1 } } : Config).wf = false := by decide
theorem test_ill_cStride : ({ ts with c := { ts.c with strideBits := 8191 } } : Config).wf = false := by decide
theorem test_ill_spanCount : ({ ts with dxN := 3 } : Config).wf = false := by decide
theorem test_ill_span : ({ ts with dxOff := [40, 56, 72, 89] } : Config).wf = false := by decide
theorem test_ill_vcid : ({ ts with vcidSel := 64 } : Config).wf = false := by decide
theorem test_ill_apid : ({ ts with apidSel := [0] } : Config).wf = false := by decide

/-! ### Command words, written out from R92 -/

theorem test_decode_system : decodeTableWord 8 0x00 = some .nop ∧ decodeTableWord 8 0x01 = some .reset := by decide
theorem test_decode_derandomizer : decodeTableWord 8 0x02 = some .drgen := by decide
theorem test_decode_line_decoder : decodeTableWord 8 0x10 = some .ldec := by decide
theorem test_decode_synchronizer : decodeTableWord 8 0x20 = some .sync := by decide
theorem test_decode_demultiplexer : decodeTableWord 8 0x30 = some .demuxd ∧ decodeTableWord 8 0x31 = some .demuxm ∧
    decodeTableWord 8 0x32 = some .spans := by decide
theorem test_decode_unpacker : decodeTableWord 8 0x40 = some .unpk10 ∧ decodeTableWord 8 0x41 = some .unpk16 ∧
    decodeTableWord 8 0x42 = some .chsel ∧ decodeTableWord 8 0x43 = some .decch := by decide
theorem test_decode_reserved : decodeBytes [0x11#8] = .error (.reserved 0x11#8) ∧
    decodeBytes [0x44#8, 0x00#8] = .error (.reserved 0x44#8) := by decide
theorem test_decode_no_byte : decodeBytes [] = .error .noByte := by decide
theorem test_decode_rest : decodeBytes [0x20#8, 0x30#8] = .ok (.sync, [0x30#8]) := by decide

/-! ### Units (95_test_vectors.md, sections 3.1 to 3.4, 3.7, 3.8) -/

/-- Bytes as a buffer reader. -/
def rd (l : List Byte) (k : Nat) : Byte := l.getD k 0x00#8

theorem test_frameByte_unaligned :
    (List.range 4).map (frameByte (bitOf .msb false (rd [0x03#8, 0x59#8, 0xFF#8, 0x83#8, 0xA0#8])) 3) =
      [0x1A#8, 0xCF#8, 0xFC#8, 0x1D#8] := by decide
theorem test_byteAt_lsb :
    (List.range 4).map (fun k => byteAt (bitOf .lsb false (rd [0x58#8, 0xF3#8, 0x3F#8, 0xB8#8])) (8 * k)) =
      [0x1A#8, 0xCF#8, 0xFC#8, 0x1D#8] := by decide
theorem test_ldPair : [(0x56#8, 0x99#8), (0xA5#8, 0xAA#8), (0xFF#8, 0x00#8), (0xC3#8, 0x3C#8)].map
    (fun p => ldPair { exceptions := [] } p.1 p.2) = [0x1A#8, 0xCF#8, 0xF0#8, 0x96#8] := by decide
theorem test_hamming : [[0x1A#8, 0xCF#8, 0xFC#8, 0x1D#8], [0x9A#8, 0xCF#8, 0xFC#8, 0x1D#8],
    [0xE5#8, 0xCE#8, 0xFC#8, 0x1D#8], [0x00#8, 0x00#8, 0x00#8, 0x00#8], [0xE5#8, 0x30#8, 0x03#8, 0xE2#8]].map
    (fun l => hamming ts.m (bitOf .msb false (rd l)) 0) = [0, 1, 9, 19, 32] := by decide
theorem test_hammingD : hammingD .le ts.d (rd [0xEE#8, 0xEE#8, 0x84#8, 0x02#8, 0x6F#8, 0x01#8, 0x5C#8, 0x03#8, 0x9D#8,
    0x01#8, 0x0F#8, 0x02#8, 0x95#8, 0x00#8]) 16 = 0 := by decide
theorem test_mpduFrame : (mpduFrame 9 (fun j => if j = 1 then 0x49#8 else if j = 8 then 0x01#8 else 0x2C#8)
    { bytes := List.replicate 882 0x00#8, boundaries := [16] }).boundaries = [16, 1182] := by decide +kernel
theorem test_mpduFrame_spare : (mpduFrame 9 (fun j => if j = 1 then 0xC9#8 else if j = 8 then 0x08#8 else 0x00#8)
    { bytes := [], boundaries := [] }).boundaries = [] := by decide
theorem test_sample10 : (List.range 4).map (sample10 (rd [0x12#8, 0x34#8, 0x56#8, 0x78#8, 0x9A#8]) 0) =
    [72, 837, 414, 154] := by decide
theorem test_sample16 : (List.range 4).map (sample16 .be (rd [0x84#8, 0x02#8, 0xFF#8, 0x03#8, 0x00#8, 0xFC#8, 0x01#8,
    0x80#8]) 0) = [2, 771, 252, 384] := by decide
theorem test_chanIndex : chanIndex 5 5 0 = 4 ∧ chanIndex 5 1 1 = 5 ∧ chanIndex 6 6 1571 = 9431 := by decide
theorem test_drByte : (List.range 8).map drByte =
    [0xFF#8, 0x48#8, 0x0E#8, 0xC0#8, 0x9A#8, 0x0D#8, 0x70#8, 0xBC#8] := by decide +kernel

/-! ### One step of each command -/

/-- R220: STATUS 0x12 before NOP gives 0x12 after. -/
theorem test_nop : after .nop { State.reset with status := 0x12#32 } (fun t => t.status) = some 0x12#32 := by decide

/-- R221: STATUS 0x3A, VALID 0x07, FS_COUNT 10 before RESET. -/
theorem test_reset : after .reset { State.reset with status := 0x3A#32, valid := 0x07#32, fsCount := 10, config := 2#32 }
    (fun t => (t.status, t.valid, t.fsCount, t.config)) = some (0x02#32, 0#32, 0, 0#32) := by decide

/-- R174: `DRT[0..7]` after DRGEN. -/
theorem test_drgen : after .drgen { State.reset with drt := [], lfsr := 0#8 }
    (fun t => ((List.range 8).map (Memory.read t.drt), t.lfsr)) =
    some ([0x00#8, 0x00#8, 0x00#8, 0x00#8, 0xFF#8, 0x48#8, 0x0E#8, 0xC0#8].map some, 0xFF#8) := by decide +kernel

/-- R133: nine bytes of CAP, the last unread. -/
theorem test_ldec : after .ldec { block ts 1#32 0x3F#32 with
      cap := Memory.ofList [0x56#8, 0x99#8, 0xA5#8, 0xAA#8, 0xAA#8, 0xA5#8, 0x56#8, 0xA6#8, 0xA5#8], capLen := 9 }
    (fun t => (t.ldb, t.ldbLen, t.valid, t.status)) =
    some (Memory.ofList [0x1A#8, 0xCF#8, 0xFC#8, 0x1D#8], 4, 0x01#32, 0x02#32) := by decide

/-- P3: LDEC out of family is refused with ERR_SEQ. -/
theorem test_ldec_family : after .ldec (block ts 0#32 0#32) (fun t => (t.status, t.valid)) = some (0x12#32, 0#32) := by
  decide

/-- P1's first two frames: FS = 0, 96; the lock ends (SOFT_LOCK, 1, 0, 1) at 192. -/
theorem test_sync : after .sync { block ts 1#32 1#32 with
      ldb := Memory.ofList [0x1A#8, 0xCF#8, 0xFC#8, 0x1D#8, 0x10#8, 0x11#8, 0x12#8, 0x13#8, 0x14#8, 0x15#8, 0x16#8,
        0x17#8, 0x1A#8, 0xCF#8, 0xFC#8, 0x1D#8, 0x20#8, 0x21#8, 0x22#8, 0x23#8, 0x24#8, 0x25#8, 0x26#8, 0x27#8]
      ldbLen := 24 }
    (fun t => (t.fs, t.lock, t.pos, t.valid, t.status)) =
    some ([(0, 0), (1, 96)], ⟨.softLock, 1, 0, true⟩, 192, 0x03#32, 0x02#32) := by decide +kernel

/-- P3: SYNC of nothing sets EMPTY; without V_LDB it is refused in family M. -/
theorem test_sync_empty : after .sync (block ts 1#32 1#32) (fun t => (t.fsCount, t.status, t.valid)) =
      some (0, 0x06#32, 0x03#32) ∧
    after .sync (block ts 1#32 0#32) (fun t => (t.status, t.valid)) = some (0x12#32, 0#32) := by decide

/-- R182: `FS = [0]` gives `DMX = 11 13 15 17`. -/
theorem test_demuxd : after .demuxd { block ts 1#32 3#32 with
      ldb := Memory.ofList [0x1A#8, 0xCF#8, 0xFC#8, 0x1D#8, 0x10#8, 0x11#8, 0x12#8, 0x13#8, 0x14#8, 0x15#8, 0x16#8,
        0x17#8]
      ldbLen := 12, fs := [(0, 0)], fsCount := 1, bnd := [(0, 7)], bndCount := 1 }
    (fun t => (t.dmx, t.dmxLen, t.bndCount, t.valid, t.status)) =
    some (Memory.ofList [0x11#8, 0x13#8, 0x15#8, 0x17#8], 4, 0, 0x07#32, 0x02#32) := by decide +kernel

/-- One frame with `pay[1] = 49`, `pay[8] = 01`, `pay[9] = 2C` (the bytes of CAP are these with DRT, section 3.6):
kept, boundary 300, 882 bytes. -/
theorem test_demuxm : after .demuxm { block Config.reference 2#32 2#32 with
      cap := [(5, 0x01#8), (12, 0x8F#8), (13, 0x00#8)], capLen := 1024, fs := [(0, 0)], fsCount := 1 }
    (fun t => (t.bnd, t.dmxLen, t.valid, t.status)) = some ([(0, 300)], 882, 0x06#32, 0x02#32) := by decide +kernel

/-- A frame of another VCID (45) is dropped. -/
theorem test_demuxm_dropped : after .demuxm { block Config.reference 2#32 2#32 with
      cap := [(5, 0x0D#8)], capLen := 1024, fs := [(0, 0)], fsCount := 1 }
    (fun t => (t.bnd, t.dmx, t.status)) = some ([], [], 0x06#32) := by decide +kernel

/-- R226's example. -/
theorem test_spans : after .spans { block Config.reference 2#32 6#32 with
      bnd := Memory.ofList [16, 1182, 4693, 3528], bndCount := 4, dmxLen := 4410 }
    (fun t => (t.spn, t.spnCount, t.status, t.valid)) = some ([(0, 16, 1166)], 1, 0x42#32, 0x0E#32) := by decide

/-- Section 3.9: adjacent whole spans, none dropped. -/
theorem test_spans_kept : after .spans { block Config.reference 2#32 6#32 with
      bnd := Memory.ofList [0, 882, 1764], bndCount := 3, dmxLen := 1764 }
    (fun t => (t.spn, t.status)) = some ([(0, 0, 882), (1, 882, 882)], 0x02#32) := by decide

/-- R202's example. -/
theorem test_unpk10 : after .unpk10 { block ts 1#32 4#32 with
      dmx := Memory.ofList [0xFF#8, 0xE0#8, 0x00#8, 0x00#8, 0xFF#8], dmxLen := 5, argCount := 4 }
    (fun t => (t.pix, t.pixLen, t.valid)) =
    some (Memory.ofList [61380#16, 30720#16, 0#16, 15300#16], 4, 0x14#32) := by decide

/-- Section 3.8, the range rule: base 5 and count 0 is legal, base 6 and count 0 is not. -/
theorem test_unpk10_range : after .unpk10 { block ts 1#32 4#32 with dmxLen := 5, argBase := 5 }
      (fun t => (t.pixLen, t.status)) = some (0, 0x02#32) ∧
    after .unpk10 { block ts 1#32 4#32 with dmxLen := 5, argBase := 6 } (fun t => (t.valid, t.status)) =
      some (4#32, 0x22#32) := by decide

/-- R205's example. -/
theorem test_unpk16 : after .unpk16 { block Config.reference 0#32 0#32 with
      cap := Memory.ofList [0x84#8, 0x02#8, 0xFF#8, 0x03#8, 0x00#8, 0xFC#8], capLen := 6, argCount := 3 }
    (fun t => (t.pix, t.valid)) = some (Memory.ofList [25760#16, 40920#16, 0#16], 0x10#32) := by decide

/-- Section 3.8: CHSEL of channel 2 into row 1, and row 3 refused. -/
theorem test_chsel : after .chsel { block ts 0x11#32 0x10#32 with
      pix := Memory.ofList [60#16, 120#16, 180#16, 240#16, 300#16, 360#16, 420#16, 480#16], pixLen := 8,
      chi := Memory.ofList [60#16, 180#16, 300#16, 420#16], chiRows := 1, argRow := 1 }
    (fun t => (t.chi, t.chiRows, t.status)) =
    some (Memory.ofList [60#16, 180#16, 300#16, 420#16, 120#16, 240#16, 360#16, 480#16], 2, 0x02#32) := by decide
theorem test_chsel_row : after .chsel { block ts 0x11#32 0x10#32 with pixLen := 8, chiRows := 2, argRow := 3 }
    (fun t => (t.chi, t.chiRows, t.status)) = some ([], 2, 0x22#32) := by decide

/-- P1: DECCH of channel 1, lines at 0 and 2. -/
theorem test_decch : after .decch { block ts 0x09#32 0x07#32 with
      dmx := Memory.ofList [0x11#8, 0x13#8, 0x15#8, 0x17#8, 0x21#8, 0x23#8, 0x25#8, 0x27#8, 0x31#8, 0x33#8, 0x35#8,
        0x37#8]
      dmxLen := 12, line := [(0, 0), (1, 2)], lineCount := 2 }
    (fun t => (t.chi, t.chiRows, t.valid)) =
    some (Memory.ofList [4080#16, 19500#16, 8400#16, 27600#16, 5040#16, 4320#16, 9360#16, 12300#16], 2, 0x27#32) := by
  decide

/-! ### The host's side (R35 to R38, R40, R95, R96) -/

/-- V4, R36: a write of STATUS is ignored. -/
theorem test_write_status : step (host (.writeReg 0x01 0x7F#64)) = .next State.reset := rfl

/-- P3: `WR CMD, 0x11` and then `LOAD CAP, <nothing>`: the write of CAP_LEN waits for the end of the refused command. -/
theorem test_load_waits : step { busy 0x11#8 [.awaitIdle, .writeReg 0x04 0#64] with status := 0x11#32 } =
    .next { State.reset with status := 0x1A#32, host := [.awaitIdle, .writeReg 0x04 0#64] } := rfl

/-- R40: STATUS may be read while BUSY = 1, and shows it. -/
theorem test_read_status_busy : observed (busy 0x20#8 [.readReg 0x01]) = some [.register 1#64] := by decide

/-- R30, R96: the `RD CHI` of DECODECHANNEL reads CHI_ROWS rows of WIDTH samples. -/
theorem test_read_chi : observed { block ts 0x09#32 0x27#32 with
      chi := Memory.ofList [4080#16, 19500#16, 8400#16, 27600#16], chiRows := 1, host := [.readBuffer .chi] } =
    some [.sample 4080#16, .sample 19500#16, .sample 8400#16, .sample 27600#16] := by decide

theorem test_decode_channel : (pseudoDecodeChannel 1#4).flatMap Statement.accesses =
    [.awaitIdle, .writeChannel 1#4, .awaitIdle, .writeReg 0x00 0x43#64, .poll, .awaitIdle, .readBuffer .chi] := by decide

/-! ### Witnesses: a state and operands that meet all the hypotheses of an obligation -/

theorem test_witness_DecodeOfEncodeIsTheCommand : Instr.wf .decch = true ∧
    decodeBytes [0x43#8, 0x11#8] = .ok (.decch, [0x11#8]) := by decide

theorem test_witness_StepRunsTheHeldCommand :
    ((busy 0x00#8 []).cfg.wf = true ∧ (busy 0x00#8 []).cmd = some 0x00#8 ∧ (busy 0x00#8 []).host = [] ∧
      decodeCommand 0x00#8 = .ok .nop) ∧
    ∀ a ∈ [HostAccess.poll, .writeCap 0 0#8, .readReg 0x02],
      (busy 0x43#8 [a]).cfg.wf = true ∧ (busy 0x43#8 [a]).cmd = some 0x43#8 ∧ (busy 0x43#8 [a]).host = a :: [] ∧
        (∀ v rest, a :: [] ≠ .writeReg 0x00 v :: rest) ∧ (∀ rest, a :: [] ≠ .readReg 0x01 :: rest) ∧
        decodeCommand 0x43#8 = .ok .decch := by
  refine ⟨by decide, fun a ha => ?_⟩
  fin_cases ha <;> exact ⟨by decide, rfl, rfl, nofun, nofun, rfl⟩

theorem test_witness_PlacedWordRunsNext : State.reset.cfg.wf = true ∧ decodeTableWord 8 0x43 = some .decch := by decide

theorem test_witness_CmdWriteStartsTheCommand :
    let s := host (.writeReg 0x00 255#64)
    s.cfg.wf = true ∧ s.cmd = none ∧ flag s .busy = false ∧ s.host = .writeReg 0x00 255#64 :: [] ∧
      (255#64 : Dword).toNat < 256 := by decide

theorem test_witness_CmdWriteWhileBusyIsIgnored :
    let s := busy 0x20#8 [.writeReg 0x00 1#64]
    s.cfg.wf = true ∧ flag s .busy = true ∧ s.host = .writeReg 0x00 1#64 :: [] := by decide

theorem test_witness_NoOtherAccessWhileBusy :
    let s := busy 0x20#8 [.writeReg 0x01 0#64]
    let u : State := { s with cmd := none }
    s.cfg.wf = true ∧ flag s .busy = true ∧ s.host = .writeReg 0x01 0#64 :: [] ∧
      (∀ v, HostAccess.writeReg 0x01 0#64 ≠ .writeReg 0x00 v) ∧ HostAccess.writeReg 0x01 0#64 ≠ .readReg 0x01 ∧
      s.cmd = some 0x20#8 ∧ (0x20#8 : Byte) ≠ 0x01#8 ∧ flag u .busy = true ∧ u.cmd = none :=
  ⟨by decide, by decide, rfl, nofun, by decide, rfl, by decide, by decide, rfl⟩

theorem test_witness_ReservedCodeIsRefused :
    (let s := busy 0x03#8 []
     s.cfg.wf = true ∧ s.cmd = some 0x03#8 ∧ s.host = [] ∧ ∀ i, (0x03#8, i) ∉ commandMap) ∧
    (let s := { host (.writeReg 0x00 255#64) with host := [.writeReg 0x00 255#64, .writeReg 0x04 0#64] }
     s.cfg.wf = true ∧ s.cmd = none ∧ flag s .busy = false ∧
      s.host = .writeReg 0x00 255#64 :: [.writeReg 0x04 0#64] ∧
      (∀ u r, [HostAccess.writeReg 0x04 0#64] ≠ .writeReg 0x00 u :: r) ∧
      (∀ r, [HostAccess.writeReg 0x04 0#64] ≠ .readReg 0x01 :: r) ∧
      (255#64 : Dword).toNat < 256 ∧ ∀ i, ((255#64 : Dword).setWidth 8, i) ∉ commandMap) :=
  ⟨⟨by decide, rfl, rfl, fun i => by cases i <;> decide⟩,
    by decide, rfl, by decide, rfl, nofun, nofun, by decide,
    fun i => by cases i <;> decide⟩

theorem test_witness_ConfigWriteStoresAndGuardsFamily :
    let s := host (.writeReg 0x02 0xFFFFFFFF#64)
    let u := host (.writeReg 0x02 0x78#64)
    (s.cfg.wf = true ∧ s.cmd = none ∧ flag s .busy = false ∧ s.host = .writeReg 0x02 0xFFFFFFFF#64 :: [] ∧
      (0xFFFFFFFF#64 : Dword).toNat < 2 ^ 32 ∧ familyField 0x7F#32 ≠ familyField s.config) ∧
    u.cfg.wf = true ∧ u.host = .writeReg 0x02 0x78#64 :: [] ∧ (0x78#64 : Dword).toNat < 2 ^ 32 ∧
      familyField 0x78#32 = familyField u.config := by decide

theorem test_witness_ConfigFieldWriteKeepsTheOthers :
    ∀ a ∈ [HostAccess.writeFamily 0#2, .writeFamily 3#2, .writePassdir 1#1, .writeChannel 15#4],
      (host a).cfg.wf = true ∧ (host a).cmd = none ∧ flag (host a) .busy = false ∧ (host a).host = a :: [] ∧
        0#2 = familyField (host a).config ∧ 3#2 ≠ familyField (host a).config := by decide

theorem test_witness_CapLenWriteClearsValid :
    let s := host (.writeReg 0x04 0xFFFFFFFFFFFFFFFF#64)
    let u := host (.writeCap 0 0xFF#8)
    (s.cfg.wf = true ∧ s.cmd = none ∧ flag s .busy = false ∧ s.host = .writeReg 0x04 0xFFFFFFFFFFFFFFFF#64 :: []) ∧
    u.cfg.wf = true ∧ u.cmd = none ∧ flag u .busy = false ∧ u.host = .writeCap 0 0xFF#8 :: [] := by decide

theorem test_witness_LineAndArgumentWritesStore :
    ∀ a ∈ [HostAccess.writeReg 0x0A 0#64, .writeReg 0x0D 1#64, .writeReg 0x0E 2#64,
        .writeReg 0x0F 0xFFFFFFFFFFFFFFFF#64, .writeLine 0 7#64],
      (host a).cfg.wf = true ∧ (host a).cmd = none ∧ flag (host a) .busy = false ∧ (host a).host = a :: [] := by decide

theorem test_witness_HostAccessesThatStoreNothing :
    ∀ a ∈ [HostAccess.writeReg 0x01 0xFFFFFFFF#64, .writeReg 0x0C 0#64, .writeReg 0x10 0#64, .writeReg 0x00 256#64,
        .writeReg 0x02 0x100000000#64, .readReg 0x10],
      (host a).cfg.wf = true ∧ (host a).cmd = none ∧ flag (host a) .busy = false ∧ (host a).host = a :: [] ∧
        256 ≤ (256#64 : Dword).toNat ∧ 2 ^ 32 ≤ (0x100000000#64 : Dword).toNat := by decide

theorem test_witness_HostReadsSeeWhatIsStored :
    flag State.reset .busy = false ∧ flag (busy 0x20#8 []) .busy = true ∧
    ((busy 0x20#8 [.readReg 0x01]).cfg.wf = true ∧ (busy 0x20#8 [.readReg 0x01]).host = .readReg 0x01 :: []) ∧
    ∀ a ∈ [HostAccess.readReg 0x0F, .readBuffer .drt],
      (host a).cfg.wf = true ∧ (host a).cmd = none ∧ flag (host a) .busy = false ∧ (host a).host = a :: [] ∧
        0 < bufferLength (host a) .drt := by decide

theorem test_witness_IdleBlockDoesNothing :
    State.reset.cfg.wf = true ∧ State.reset.cmd = none ∧ State.reset.host = [] := by decide

theorem test_witness_NonConfigurationIsRefused :
    ¬ KeepsR9 ({ State.reset with cfg := { ts with c := { ts.c with strideBits := 8191 } } } : State).cfg :=
  fun h => absurd h.2.2.1 (by decide)

theorem test_witness_ResetCommandRestoresResetValues :
    let s := { State.reset with status := 0x12#32 }
    Instr.nop ≠ .reset ∧ exec .nop s = .next (endCommand s) ∧ flag s .errSeq = true := ⟨by decide, rfl, by decide⟩

theorem test_witness_AlignedByteReadsBack :
    let k := FamilyConsts.refTransport 6 1572
    (k.bitOrder = .msb ∧ k.invert = false) ∧
    (({ k with bitOrder := .lsb } : FamilyConsts).bitOrder = .lsb ∧
      ({ k with bitOrder := .lsb } : FamilyConsts).invert = false) ∧
    (({ k with invert := true } : FamilyConsts).bitOrder = .msb ∧
      ({ k with invert := true } : FamilyConsts).invert = true) := by decide

theorem test_witness_LdecDecodesEveryPair :
    FirstRefusal .ldec (block ts 0#32 0#32) .errSeq ∧ FirstRefusal .ldec (block ts 3#32 0#32) .errArg ∧
    family (block ts 1#32 0#32) = some .m :=
  ⟨.wrongFamily .d rfl (by decide) rfl, .reservedFamily rfl (by decide), by decide⟩

/-- The rows of section 3.4: each meets the hypotheses of one transition at a boundary, and steps as the spec says. -/
theorem test_witness_LockMachineTransitions :
    let k := FamilyConsts.refTransport 6 1572
    (k.nGood = 5 ∧ k.nBad = 5 ∧ k.nSlip = 2) ∧
    (1 ≤ k.t0 ∧ k.locking = true ∧ syStep k ⟨.unlocked, 0, 0, false⟩ 1 = ⟨.softLock, 0, 0, false⟩) ∧
    (({ k with locking := false } : FamilyConsts).locking = false ∧
      syStep { k with locking := false } ⟨.unlocked, 0, 0, false⟩ 0 = ⟨.unlocked, 0, 0, false⟩) ∧
    (k.t0 < 2 ∧ syStep k ⟨.unlocked, 0, 0, false⟩ 2 = ⟨.unlocked, 0, 0, false⟩) ∧
    (4 ≤ k.t1 ∧ syStep k ⟨.softLock, 0, 0, false⟩ 4 = ⟨.softLock, 1, 0, true⟩) ∧
    (4 ≤ k.t1 ∧ syStep k ⟨.softLock, 4, 0, true⟩ 4 = ⟨.hardLock, 0, 0, true⟩) ∧
    (k.t1 < 5 ∧ syStep k ⟨.softLock, 3, 0, true⟩ 5 = ⟨.softLock, 0, 1, true⟩) ∧
    (k.t1 < 5 ∧ syStep k ⟨.softLock, 0, 1, true⟩ 5 = ⟨.resync, 0, 0, false⟩) ∧
    (k.t1 < 5 ∧ syStep k ⟨.softLock, 0, 3, false⟩ 5 = ⟨.softLock, 0, 4, false⟩) ∧
    (k.t1 < 5 ∧ syStep k ⟨.softLock, 0, 4, false⟩ 5 = ⟨.unlocked, 0, 0, false⟩) ∧
    (2 ≤ k.t2 ∧ syStep k ⟨.resync, 0, 7, false⟩ 2 = ⟨.softLock, 0, 0, false⟩) ∧
    (k.t2 < 3 ∧ 7 + 1 < k.resyncBudget ∧ syStep k ⟨.resync, 0, 7, false⟩ 3 = ⟨.resync, 0, 8, false⟩) ∧
    (k.t2 < 3 ∧ 8191 + 1 = k.resyncBudget ∧ syStep k ⟨.resync, 0, 8191, false⟩ 3 = ⟨.unlocked, 0, 0, false⟩) ∧
    (8 ≤ k.t3 ∧ syStep k ⟨.hardLock, 0, 0, true⟩ 8 = ⟨.hardLock, 0, 0, true⟩) ∧
    (k.t3 < 9 ∧ syStep k ⟨.hardLock, 0, 0, true⟩ 9 = ⟨.softLock, 0, 0, true⟩) ∧
    admitted k 8192 0 = true ∧ admitted k 8191 0 = false := by decide

theorem test_witness_PassIsTheWhileLoop : 1 ≤ ts.m.unit ∧ 1 ≤ ts.m.strideBits := by decide
theorem test_witness_PassEndsAndAscends : 1 ≤ ts.d.unit ∧ 1 ≤ ts.d.strideBits := by decide
theorem test_witness_LockedFramesNeverOverlap :
    ts.c.locking = true ∧ 1 ≤ ts.c.unit ∧ 1 ≤ ts.c.strideBits := by decide
theorem test_witness_WordDistanceIsTheBitDistance :
    ts.d.w = 96 ∧ ts.d.bitOrder = .msb ∧ ts.d.invert = false := by decide
theorem test_witness_PassKeepsCountersInRange :
    1 ≤ ts.m.nGood ∧ 1 ≤ ts.m.nBad ∧ 1 ≤ ts.m.nSlip ∧ 1 ≤ ts.m.resyncBudget := by decide
theorem test_witness_FamilyDFindsExactlyTheMarkers : (block Config.tinyD 0#32 0#32).cfg.wf = true := by decide

theorem test_witness_SyncStoresThePass :
    FirstRefusal .sync (block ts 1#32 0#32) .errSeq ∧ FirstRefusal .sync (block ts 3#32 0#32) .errArg ∧
    family (block ts 0#32 0#32) = some .d ∧ family (block ts 2#32 0#32) = some .c ∧
    family (block ts 1#32 1#32) = some .m ∧ validBit (block ts 1#32 1#32) .ldb = true :=
  ⟨.notValid .m .ldb (by decide) rfl rfl (by decide), .reservedFamily rfl (by decide), by decide, by decide,
    by decide, by decide⟩

theorem test_witness_DemuxdConcatenatesTheSpans :
    FirstRefusal .demuxd (block ts 1#32 0#32) .errSeq ∧
    (let s := { block ts 1#32 2#32 with fsCount := 1, fs := [(0, 0)] }
     family s = some .m ∧ validBit s .fs = true ∧ 0 < s.fsCount ∧ 3 < s.cfg.dxN ∧ 0 < s.cfg.dxLen.getD 3 0) :=
  ⟨.notValid .m .fs (by decide) rfl rfl (by decide), by decide⟩

theorem test_witness_DemuxmKeepsTheSelectedChannel :
    FirstRefusal .demuxm (block ts 2#32 0#32) .errSeq ∧
    (let s := { block Config.reference 2#32 2#32 with
                  cap := [(5, 0x01#8), (12, 0x8F#8), (13, 0x00#8)], capLen := 1024, fs := [(0, 0)], fsCount := 1 }
     family s = some .c ∧ validBit s .fs = true ∧ 0 < s.fsCount ∧ keptFrame s 0 = true ∧ boundaryFrame s 0 = true) :=
  ⟨.notValid .c .fs (by decide) rfl rfl (by decide), by decide +kernel⟩

theorem test_witness_SpansKeepsThePairsInsideDmx :
    FirstRefusal .spans (block ts 1#32 0x3F#32) .errSeq ∧
    (let s := { block Config.reference 2#32 6#32 with bnd := Memory.ofList [0, 882, 882], bndCount := 3, dmxLen := 882 }
     family s = some .c ∧ validBit s .dmx = true ∧ 0 < s.bndCount - 1 ∧ keptPair s 0 = true ∧ keptPair s 1 = false) :=
  ⟨.wrongFamily .m rfl (by decide) rfl, by decide⟩

theorem test_witness_UnpkTenFillsPix :
    (let s := { block ts 1#32 4#32 with dmxLen := 5, argCount := 5 }
     FirstRefusal .unpk10 s .errArg) ∧
    (let s := { block ts 1#32 4#32 with dmxLen := 5, argCount := 4 }
     family s = some .m ∧ validBit s .dmx = true ∧ s.argBase + (10 * s.argCount + 7) / 8 ≤ s.dmxLen) ∧
    (let s := { block ts 2#32 4#32 with dmxLen := 5, argBase := 5 }
     family s = some .c ∧ validBit s .dmx = true ∧ s.argBase + (10 * s.argCount + 7) / 8 ≤ s.dmxLen) :=
  ⟨.outOfRange .m (by decide) rfl (fun v h => by cases h; decide) (.inr (.inl ⟨rfl, by decide⟩)), by decide, by decide⟩

theorem test_witness_UnpkSixteenFillsPix :
    FirstRefusal .unpk16 (block ts 1#32 0#32) .errSeq ∧
    (let s := { block ts 0#32 0#32 with capLen := 8, argCount := 4 }
     family s = some .d ∧ s.argBase + 2 * s.argCount ≤ s.capLen) :=
  ⟨.wrongFamily .m rfl (by decide) rfl, by decide⟩

theorem test_witness_ChselWritesOneRow :
    FirstRefusal .chsel { block ts 0x19#32 0x10#32 with pixLen := 8 } .errArg ∧
    (let s := { block ts 0x11#32 0x10#32 with pixLen := 8, chiRows := 1, argRow := 1 }
     family s = some .m ∧ validBit s .pix = true ∧ 1 ≤ channel s ∧ channel s ≤ (s.cfg.family .m).nch ∧
      s.pixLen = (s.cfg.family .m).nch * (s.cfg.family .m).width ∧ s.argRow ≤ s.chiRows) :=
  ⟨.outOfRange .m (by decide) rfl (fun v h => by cases h; decide) (.inl ⟨.inl rfl, .inr (by decide)⟩), by decide⟩

/-- A line that ends exactly where the unpack source ends. -/
def oneLine : State := { block ts 0x09#32 4#32 with dmxLen := 10, line := [(0, 0)], lineCount := 1 }

theorem test_witness_DecchBuildsTheImage :
    FirstRefusal .decch { oneLine with config := 0x01#32 } .errArg ∧
    family oneLine = some .m ∧ (Family.m ≠ .d → validBit oneLine .dmx = true) ∧ 1 ≤ channel oneLine ∧
      channel oneLine ≤ (oneLine.cfg.family .m).nch ∧
      (∀ r, r < oneLine.lineCount → lineElem oneLine r + (if Family.m = .d then 2 * (oneLine.cfg.d.nch * oneLine.cfg.d.width)
        else (10 * ((oneLine.cfg.family .m).nch * (oneLine.cfg.family .m).width) + 7) / 8) ≤
        (if Family.m = .d then oneLine.capLen else oneLine.dmxLen)) :=
  ⟨.outOfRange .m (by decide) rfl (fun v h => by cases h; decide) (.inl ⟨.inr rfl, .inl (by decide)⟩), by decide⟩

theorem test_witness_DecchRowIsUnpackThenSelect :
    family oneLine = some .m ∧ (Family.m ≠ .d → validBit oneLine .dmx = true) ∧ 1 ≤ channel oneLine ∧
      channel oneLine ≤ (oneLine.cfg.family .m).nch ∧
      (∀ r, r < oneLine.lineCount → lineElem oneLine r + (if Family.m = .d then 2 * (oneLine.cfg.d.nch * oneLine.cfg.d.width)
        else (10 * ((oneLine.cfg.family .m).nch * (oneLine.cfg.family .m).width) + 7) / 8) ≤
        (if Family.m = .d then oneLine.capLen else oneLine.dmxLen)) ∧
      exec .decch oneLine = .next (endCommand (decchResult oneLine)) ∧ 0 < oneLine.lineCount :=
  ⟨by decide, by decide, by decide, by decide, by decide, rfl, by decide⟩

theorem test_witness_PackThenUnpackReturnsTheSamples :
    let B := rd [0xFF#8, 0xE0#8, 0x00#8, 0x00#8, 0xFF#8]
    1023 < 1024 ∧ 512 < 1024 ∧ 0 < 1024 ∧ 255 < 1024 ∧ (B 0).toNat = 1023 >>> 2 ∧
      (B 1).toNat = ((1023 % 4) <<< 6) ||| (512 >>> 4) ∧ (B 2).toNat = ((512 % 16) <<< 4) ||| (0 >>> 6) ∧
      (B 3).toNat = ((0 % 64) <<< 2) ||| (255 >>> 8) ∧ (B 4).toNat = 255 % 256 := by decide

theorem test_witness_ScalingIsExact : Config.reference.wf = true ∧ 1023 ≤ 1023 := by decide

theorem test_witness_RefusalIsPrecise :
    let s := block ts 0#32 0#32
    exec .ldec s = .next (refuse .errSeq s) ∧ flag s .errSeq = false ∧ flag (refuse .errSeq s) .errSeq = true :=
  ⟨rfl, by decide, by decide⟩

theorem test_witness_FirstApplicableRefusalIsTaken :
    (∀ i, (0xFF#8, i) ∉ commandMap) ∧ FirstRefusal .chsel (block ts 3#32 0#32) .errArg ∧
    (∀ e, ¬ FirstRefusal .nop (block ts 3#32 0#32) e) :=
  ⟨fun i => by cases i <;> decide, .reservedFamily rfl (by decide), by
    intro e h
    cases h with
    | reservedFamily h1 => cases h1
    | wrongFamily f h1 => cases h1
    | notValid f v h1 h2 h3 => cases h3
    | outOfRange f h1 h2 h3 h4 => rcases h4 with ⟨h | h, -⟩ | ⟨h, -⟩ | ⟨h, -⟩ | ⟨h, -⟩ | ⟨h, -⟩ <;> cases h⟩

theorem test_witness_OnlyResetClearsErrorFlags :
    let s := { busy 0x01#8 [] with status := 0x39#32 }
    step s = .next (endCommand (resetResult s)) ∧
      ∀ e : ErrFlag, flag s e.flag = true ∧ flag (endCommand (resetResult s)) e.flag = false :=
  ⟨rfl, fun e => by cases e <;> decide⟩

theorem test_witness_ErrorFlagsSteerNoCommand : Instr.sync ≠ .reset := by decide
theorem test_witness_PassdirSteersNoCommand : Instr.chsel ≠ .reset := by decide

theorem test_witness_EmptyResultsEndNormally :
    (family (block ts 1#32 0#32) = some .m ∧ ({ block ts 1#32 0#32 with capLen := 1 } : State).capLen ≤ 1) ∧
    (let s := { block ts 1#32 1#32 with ldbLen := 11 }
     family s = some .m ∧ (Family.m = .m → validBit s .ldb = true) ∧
      8 * srcLen s .m < max (s.cfg.family .m).w (s.cfg.family .m).strideBits) ∧
    (let s := block ts 1#32 2#32
     family s = some .m ∧ validBit s .fs = true ∧ s.fsCount = 0) ∧
    (let s := { block Config.reference 2#32 2#32 with
                  cap := [(5, 0x0D#8)], capLen := 1024, fs := [(0, 0)], fsCount := 1 }
     family s = some .c ∧ validBit s .fs = true ∧ ∀ f, f < s.fsCount → keptFrame s f = false) ∧
    (let s := { block ts 2#32 4#32 with bndCount := 1 }
     family s = some .c ∧ validBit s .dmx = true ∧ s.bndCount < 2) ∧
    (let s := block ts 0x11#32 4#32
     family s = some .m ∧ (Family.m ≠ .d → validBit s .dmx = true) ∧ 1 ≤ channel s ∧
      channel s ≤ (s.cfg.family .m).nch ∧ s.lineCount = 0) := by decide +kernel

theorem test_witness_CommandsKeepTheHostsObjects :
    Instr.nop ≠ .reset ∧ exec .nop State.reset = .next (endCommand State.reset) := ⟨by decide, rfl⟩

/-- RESET in a state in which every part differs from its reset value: each part changes. -/
theorem test_witness_ProductsHaveTheirWriters :
    let s := { busy 0x01#8 [] with ldbLen := 1, fsCount := 1, lfsr := 0#8, dmxLen := 1, bndCount := 1, spnCount := 1,
                                   pixLen := 1, chiRows := 1, pos := 1 }
    step s = .next (endCommand (resetResult s)) ∧
      ∀ p ∈ [Part.ldb, .fs, .drt, .dmx, .bnd, .spn, .pix, .chi, .lock],
        ¬ PartKept p s (endCommand (resetResult s)) := by
  refine ⟨rfl, fun p hp h => ?_⟩
  cases p
  case lock => exact absurd h.2 (by decide)
  case model => exact absurd hp (by decide)
  case config => exact absurd hp (by decide)
  case cap => exact absurd hp (by decide)
  case line => exact absurd hp (by decide)
  case args => exact absurd hp (by decide)
  all_goals exact absurd h.1 (by decide)

theorem test_witness_CommandsAreRepeatable :
    let s := { block ts 0x11#32 0x10#32 with pixLen := 8, chiRows := 1, argRow := 0 }
    memoryWf s = true ∧ exec .chsel s = .next (endCommand (chselResult s)) ∧ (Instr.chsel = .chsel → s.argRow < s.chiRows) :=
  ⟨memoryWf_resetWith ts, rfl, by decide⟩

theorem test_witness_EveryStepKeepsTheInvariant :
    let s := { State.reset with status := 0x42#32, config := 0x7F#32 }
    Sound s ∧ step s = .next s :=
  ⟨{ memory := memoryWf_reset
     reserved := by decide
     table := ⟨fun i hi => drt_resetWith Config.reference i hi, rfl⟩
     busy := by decide
     good := by decide
     written := ⟨fun _ h => absurd h (Nat.not_lt_zero _), fun _ h => absurd h (Nat.not_lt_zero _),
      fun _ h => absurd h (Nat.not_lt_zero _), fun _ h => absurd h (Nat.not_lt_zero _),
      fun _ h => absurd h (Nat.not_lt_zero _), fun _ h => absurd h (Nat.not_lt_zero _)⟩ }, rfl⟩

theorem test_witness_EveryStepKeepsFrameStartsWhole :
    let s := { block Config.reference 0#32 2#32 with capLen := 22180, fs := [(0, 0)], fsCount := 1 }
    FrameStartsWhole s ∧ validBit s .fs = true ∧ step s = .next s := by
  refine ⟨fun _ f hf k hk => ?_, by decide, rfl⟩
  have hf' : f = .d := by injection hf with h; exact h.symm
  subst hf'
  have hk' : k = 0 := Nat.lt_one_iff.1 hk
  subst hk'
  exact ⟨by decide, fun j hj => absurd hj (Nat.not_lt_zero j)⟩

end Sys2Proof.Tests
end

section
/-! PROOF. A record that breaks a constraint of R9 is refused (O17): what `Config.wf` checks contains R9, and a machine
whose record fails the check does not move. -/
namespace Sys2Proof.Machine

/-- R9: in family C the stride holds a whole frame of 1024 bytes. -/
theorem wf_c_stride {c : Config} (h : c.wf = true) : 8192 ≤ c.c.strideBits := by
  simp only [Config.wf, admits, Bool.and_eq_true] at h
  obtain ⟨_, _, _, hstride, _⟩ := h
  exact of_decide_eq_true hstride

/-- R9: every span of family M lies inside the frame. -/
theorem wf_span_inside {c : Config} (h : c.wf = true) {i : Nat} (hi : i < c.dxN) :
    c.dxOff.getD i 0 + 8 * c.dxLen.getD i 0 ≤ c.m.strideBits := by
  simp only [Config.wf, admits, Bool.and_eq_true] at h
  obtain ⟨_, _, _, _, _, hspans, _⟩ := h
  exact of_decide_eq_true (List.all_eq_true.1 hspans i (List.mem_range.2 hi))

/-- The record check keeps every constraint of R9 (and the rows of R8 besides, so the converse fails). -/
theorem keepsR9_of_wf {c : Config} (h : c.wf = true) : KeepsR9 c := by
  refine ⟨?thresholds, fun f => (wf_scan_steps h f).2.2, wf_c_stride h, fun _ hi => wf_span_inside h hi⟩
  case thresholds =>
    rintro k (rfl | rfl)
    · exact transportAdmits_bounds (wf_transport h (f := .m) (by decide))
    · exact transportAdmits_bounds (wf_transport h (f := .c) (by decide))

/-- A machine whose record is not a configuration is refused, whatever it would have done next. -/
theorem step_of_not_wf {s : State} (h : ¬ s.cfg.wf = true) : step s = .refused .notAConfiguration :=
  if_neg h

/-- Settles O17: a record that breaks R9 fails the record check, and the check stands before every move. -/
theorem nonConfigurationIsRefused : Obligations.NonConfigurationIsRefused := by
  intro s hbroken
  have hnot : ¬ s.cfg.wf = true := mt keepsR9_of_wf hbroken
  exact step_of_not_wf hnot

end Sys2Proof.Machine
end

section
/-! PROOF. The header fields of a payload as numbers (O38): a mask of low bits is a remainder, a right shift is a
quotient, and the two parts of the pointer do not overlap, so that joining them is adding them (R102, R103). -/
namespace Sys2Proof.Machine

/-- R102: the mask 0x3F keeps the low six bits of payload byte 1. -/
theorem vcidOf_eq_mod (pay : Nat → Byte) : vcidOf pay = (pay 1).toNat % 64 := by
  rw [vcidOf, BitVec.toNat_and]
  exact Nat.and_two_pow_sub_one_eq_mod _ 6

/-- R103: the spare field is payload byte 8 without its low three bits. -/
theorem spareOf_eq_div (pay : Nat → Byte) : spareOf pay = (pay 8).toNat / 8 := by
  rw [spareOf, BitVec.toNat_ushiftRight]
  exact Nat.shiftRight_eq_div_pow _ 3

/-- R103: the spare field has five bits. -/
theorem spareOf_lt (pay : Nat → Byte) : spareOf pay < 32 := by
  have hbyte : (pay 8).toNat < 256 := (pay 8).isLt
  rw [spareOf_eq_div]
  omega

/-- R103: byte 9 stands below the three bits of byte 8, so the pointer is their sum. -/
theorem fhpOf_eq_add (pay : Nat → Byte) : fhpOf pay = 256 * ((pay 8).toNat % 8) + (pay 9).toNat := by
  have hlow : (pay 9).toNat < 2 ^ 8 := (pay 9).isLt
  have hhigh : (pay 8 &&& 0x07#8).toNat = (pay 8).toNat % 8 := by
    rw [BitVec.toNat_and]
    exact Nat.and_two_pow_sub_one_eq_mod _ 3
  rw [fhpOf, hhigh, ← Nat.shiftLeft_add_eq_or_of_lt hlow, Nat.shiftLeft_eq, Nat.mul_comm]

/-- R103: the pointer has eleven bits. -/
theorem fhpOf_lt (pay : Nat → Byte) : fhpOf pay < 2048 := by
  have hlow : (pay 9).toNat < 256 := (pay 9).isLt
  rw [fhpOf_eq_add]
  omega

/-- Settles O38: each field is what its mask or shift computes, and its bound is the width of the field. -/
theorem headerFieldsOfThePayload : Obligations.HeaderFieldsOfThePayload := fun pay =>
  ⟨vcidOf_eq_mod pay, spareOf_eq_div pay, spareOf_lt pay, fhpOf_eq_add pay, fhpOf_lt pay⟩

end Sys2Proof.Machine
end

section
/-! PROOF. The default line table (O25): the decoded byte is the byte assembled from every second line bit, so the law of
`ByteAt` gives its bits, and the pair's line bits are those of its first byte and then those of its second (R131, R132). -/
namespace Sys2Proof.Machine

/-- R132 assembles the decoded byte as `ByteAt` does (R122), from the sequence of the line bits at even places. -/
theorem firstHalf_eq_byteAt (a b : Byte) : firstHalf a b = byteAt (fun k => lineBit a b (2 * k)) 0 := by
  simp only [firstHalf, byteAt, Nat.zero_add]

/-- R132: decoded bit `7 - k` is line bit `2 k`. -/
theorem getLsbD_firstHalf (a b : Byte) {k : Nat} (hk : k < 8) :
    (firstHalf a b).getLsbD (7 - k) = lineBit a b (2 * k) := by
  rw [firstHalf_eq_byteAt, getLsbD_byteAt _ _ _ hk, Nat.zero_add]

/-- R131: the first eight line bits are those of the first byte, its bit 7 first. -/
theorem lineBit_first (a b : Byte) {j : Nat} (hj : j < 8) : lineBit a b j = a.getLsbD (7 - j) := if_pos hj

/-- R131: the last eight line bits are those of the second byte, its bit 7 first. -/
theorem lineBit_second (a b : Byte) (j : Nat) : lineBit a b (8 + j) = b.getLsbD (7 - j) := by
  rw [lineBit, if_neg (by omega), show 15 - (8 + j) = 7 - j by omega]

/-- With no exceptions listed the table is the rule of R132. -/
theorem ldPair_no_exceptions (a b : Byte) : ldPair { exceptions := [] } a b = firstHalf a b := rfl

/-- Settles O25: decoded bit `7 - k` is line bit `2 k`, and decoded bit `3 - k = 7 - (4 + k)` is line bit `8 + 2 k`. -/
theorem defaultLineTable : Obligations.DefaultLineTable := by
  intro a b k hk
  rw [ldPair_no_exceptions]
  constructor
  · calc (firstHalf a b).getLsbD (7 - k)
        = lineBit a b (2 * k) := getLsbD_firstHalf a b (by omega)
      _ = a.getLsbD (7 - 2 * k) := lineBit_first a b (by omega)
  · calc (firstHalf a b).getLsbD (3 - k)
        = (firstHalf a b).getLsbD (7 - (4 + k)) := by rw [show 7 - (4 + k) = 3 - k by omega]
      _ = lineBit a b (2 * (4 + k)) := getLsbD_firstHalf a b (by omega)
      _ = lineBit a b (8 + 2 * k) := by rw [Nat.mul_add]
      _ = b.getLsbD (7 - 2 * k) := lineBit_second a b (2 * k)

end Sys2Proof.Machine
end

section
/-! PROOF. The end of a command, for every command: a command whose checks name a flag is refused with it, one whose
checks pass ends with its result, and the end itself writes CMD, BUSY and DONE alone (R36, R91, R240). -/
namespace Sys2Proof.Machine

/-- A command whose checks name a flag is refused with that flag. -/
theorem exec_of_refused {i : Instr} {s : State} {e : ErrFlag} (h : refusalOf i s = some e) :
    exec i s = .next (refuse e s) :=
  (exec_next_iff i s _).2 (.inl ⟨e, h, rfl⟩)

/-- A command whose checks pass ends with its result. -/
theorem exec_of_passed {i : Instr} {s : State} (h : refusalOf i s = none) :
    exec i s = .next (endCommand (resultOf i s)) :=
  (exec_next_iff i s _).2 (.inr ⟨h, rfl⟩)

theorem ended_endCommand (t : State) : Ended (endCommand t) :=
  ⟨rfl, by rw [flag_endCommand]; rfl, by rw [flag_endCommand]; rfl⟩

/-- The same STATUS keeps every flag. -/
theorem flagsKeptBut_of_status_eq {s t : State} (h : t.status = s.status) : FlagsKeptBut [] s t :=
  ⟨fun f _ => by rw [flag, h, flag], by rw [h]⟩

/-- The end of a command writes BUSY and DONE and keeps the other flags. -/
theorem flagsKeptBut_endCommand {but : List StatusFlag} {s t : State} (h : FlagsKeptBut but s t) :
    FlagsKeptBut (.busy :: .done :: but) s (endCommand t) := by
  obtain ⟨hflags, hreserved⟩ := h
  refine ⟨fun f hf => ?_, by rw [reserved_endCommand, hreserved]⟩
  simp only [List.mem_cons, not_or] at hf
  obtain ⟨hbusy, hdone, hbut⟩ := hf
  rw [flag_endCommand, if_neg hdone, if_neg hbusy, hflags f hbut]

theorem partKept_refl (p : Part) (s : State) : PartKept p s s := by cases p <;> simp [PartKept]

/-- The end of a command writes in no part: CMD and STATUS belong to none. -/
theorem partKept_endCommand (p : Part) (s t : State) : PartKept p s (endCommand t) ↔ PartKept p s t := by
  cases p <;> exact Iff.rfl

theorem keptBut_endCommand {but : List Part} {s t : State} (h : KeptBut but s t) : KeptBut but s (endCommand t) :=
  fun p hp => (partKept_endCommand p s t).2 (h p hp)

theorem ValidBit.mem_all (v : ValidBit) : v ∈ ValidBit.all := by cases v <;> decide

end Sys2Proof.Machine
end

section
/-! PROOF. LDEC (O26): the checks are the family alone, and the result is LDB, LDB_LEN and VALID (R133, R246). -/
namespace Sys2Proof.Machine

/-- R133, R246: LDEC checks the family alone, since it requires no VALID bit and uses no channel and no argument; so the
flag that applies first is the one its checks name. -/
theorem ldecRefusal_of_firstRefusal {s : State} {e : ErrFlag} (h : FirstRefusal .ldec s e) :
    ldecRefusal s = some e := by
  cases h with
  | reservedFamily _ hfam => rw [ldecRefusal, hfam]
  | wrongFamily f _ hfam hillegal =>
    cases f with
    | d => rw [ldecRefusal, hfam]
    | m => cases hillegal
    | c => rw [ldecRefusal, hfam]
  | notValid f v _ _ hrequired => cases hrequired
  | outOfRange f _ _ _ hbad => simp [ChannelBad, ArgumentBad] at hbad

theorem ldecRefusal_family_m {s : State} (h : family s = some .m) : ldecRefusal s = none := by
  rw [ldecRefusal, h]

/-- R133: entry `k` of the decoded bytes is the table's byte of pair `k`. -/
theorem ldecBytes_get (s : State) {k : Nat} (hk : k < s.capLen / 2) :
    (ldecBytes s)[k]? = some (ldPair s.cfg.ldTable (capByte s (2 * k)) (capByte s (2 * k + 1))) := by
  rw [ldecBytes, List.getElem?_map, List.getElem?_range hk, Option.map_some]

theorem ldbByte_ldecResult (s : State) {k : Nat} (hk : k < s.capLen / 2) :
    ldbByte (ldecResult s) k = ldPair s.cfg.ldTable (capByte s (2 * k)) (capByte s (2 * k + 1)) := by
  obtain ⟨_, hread⟩ := ldecResult_reads s
  rw [ldbByte, hread, ldecBytes_get s hk, Option.getD_some]

/-- R133: LDEC clears all of VALID and then sets V_LDB. -/
theorem validBit_ldecResult (s : State) (v : ValidBit) : validBit (ldecResult s) v = decide (v = .ldb) := by
  have hcleared : validBit (clearValid ValidBit.all s) v = false := by
    rw [validBit_clearValid, decide_eq_true v.mem_all, Bool.not_true, Bool.and_false]
  calc validBit (ldecResult s) v
      = validBit (setValid .ldb (clearValid ValidBit.all s)) v := rfl
    _ = decide (v = .ldb) := by rw [validBit_setValid, hcleared, Bool.false_or]

theorem reserved_ldecResult (s : State) : (ldecResult s).valid >>> 6 = s.valid >>> 6 :=
  calc (ldecResult s).valid >>> 6
      = (setValid .ldb (clearValid ValidBit.all s)).valid >>> 6 := rfl
    _ = s.valid >>> 6 := by rw [reserved_setValid, reserved_clearValid]

/-- LDEC writes LDB and no other part. -/
theorem keptBut_ldecResult (s : State) : KeptBut [.ldb] s (ldecResult s) := by
  intro p hp
  have hsame : PartKept p s s := partKept_refl p s
  cases p
  case ldb => exact absurd (List.mem_singleton_self _) hp
  all_goals exact hsame

/-- Settles O26: the first refusal is the one LDEC's check of the family raises; in family M the check passes, and the
command ends with its result. -/
theorem ldecDecodesEveryPair : Obligations.LdecDecodesEveryPair := by
  refine ⟨fun s e hrefused => exec_of_refused (ldecRefusal_of_firstRefusal hrefused), fun s hfam => ?_⟩
  obtain ⟨hlen, _⟩ := ldecResult_reads s
  have hexec : exec .ldec s = .next (endCommand (ldecResult s)) := exec_of_passed (ldecRefusal_family_m hfam)
  have hflags : FlagsKeptBut [] s (ldecResult s) := flagsKeptBut_of_status_eq rfl
  exact ⟨endCommand (ldecResult s), hexec, ended_endCommand _, hlen, fun _ hk => ldbByte_ldecResult s hk,
    validBit_ldecResult s, reserved_ldecResult s, flagsKeptBut_endCommand hflags,
    keptBut_endCommand (keptBut_ldecResult s)⟩

end Sys2Proof.Machine
end

section
/-! PROOF. The pass of family D (O34): a machine that does not lock keeps its initial FrameLock, so its cursor moves by
UNIT from candidate to candidate and the pass finds every multiple of UNIT with a frame behind it and a distance of at
most T0; in family D a distance of 0 says that the six words are the marker words (R142, R155). -/
namespace Sys2Proof.Machine

/-! ### The word distance -/

theorem bitNat_eq_zero_iff (b : Bool) : bitNat b = 0 ↔ b = false := by
  cases b <;> decide

theorem popcount16_eq_zero_iff (v : Half) : popcount16 v = 0 ↔ v = 0#16 := by
  simp only [popcount16, List.sum_eq_zero_iff, List.forall_mem_map, List.mem_range, bitNat_eq_zero_iff]
  exact ⟨fun hbits => BitVec.eq_of_getLsbD_eq fun b hb => by rw [hbits b hb, BitVec.getLsbD_zero],
    fun hv b _ => by rw [hv, BitVec.getLsbD_zero]⟩

/-- R142: the words at a candidate are at distance 0 exactly when they are the marker words. -/
theorem hammingD_eq_zero_iff (o : WordOrder) (k : FamilyConsts) (B : Nat → Byte) (p : Nat) :
    hammingD o k B p = 0 ↔ ∀ j, j < 6 → word16 o B (p / 16 + j) = markerWord k j := by
  simp only [hammingD, List.sum_eq_zero_iff, List.forall_mem_map, List.mem_range, popcount16_eq_zero_iff,
    BitVec.xor_eq_zero_iff]

/-! ### A machine that does not lock -/

/-- R145: without LOCKING no candidate, accepted or rejected, moves the machine out of UNLOCKED. -/
theorem syStep_initial {k : FamilyConsts} (hfree : k.locking = false) (d : Nat) :
    syStep k FrameLock.initial d = FrameLock.initial := by
  change syUnlocked k (accepted k FrameLock.initial d) = FrameLock.initial
  rw [syUnlocked, hfree, Bool.and_false]
  rfl

theorem scanStep_initial (k : FamilyConsts) : scanStep k FrameLock.initial.st = k.unit := rfl

theorem passTrace_of_not_locking {k : FamilyConsts} (hfree : k.locking = false) (dist : Nat → Nat) (n : Nat) :
    passTrace k dist n = (k.unit * n, FrameLock.initial) := by
  induction n with
  | zero => rfl
  | succ n ih => rw [passTrace, ih, syStep_initial hfree, scanStep_initial, Nat.mul_succ]

/-- R143: in UNLOCKED a candidate is accepted when its distance is at most T0. -/
theorem accepted_initial_iff (k : FamilyConsts) (d : Nat) : accepted k FrameLock.initial d = true ↔ d ≤ k.t0 :=
  decide_eq_true_iff

/-- R151, R152: one turn of the loop in a machine that does not lock moves the cursor by UNIT. -/
theorem syncLoop_next_of_not_locking {k : FamilyConsts} (hfree : k.locking = false) (dist : Nat → Nat)
    {n pos : Nat} (fuel : Nat) (hadm : admitted k n pos = true) :
    syncLoop k dist n (fuel + 1) pos FrameLock.initial =
      { syncLoop k dist n fuel (pos + k.unit) FrameLock.initial with
        found := (if accepted k FrameLock.initial (dist pos) then [pos] else []) ++
          (syncLoop k dist n fuel (pos + k.unit) FrameLock.initial).found } := by
  rw [syncLoop_next k dist n fuel pos _ hadm, syStep_initial hfree, scanStep_initial]

theorem syncLoop_lock_of_not_locking {k : FamilyConsts} (hfree : k.locking = false) (dist : Nat → Nat)
    (n fuel pos : Nat) : (syncLoop k dist n fuel pos FrameLock.initial).lock = FrameLock.initial := by
  induction fuel generalizing pos with
  | zero => rfl
  | succ fuel ih =>
    cases hadm : admitted k n pos with
    | false => rw [syncLoop_stop k dist n _ pos _ hadm]
    | true => rw [syncLoop_next_of_not_locking hfree dist fuel hadm]; exact ih _

/-- R150: no position from one that is not admitted on has a frame behind it, so the loop finds none there. -/
theorem mem_syncLoop_found_of_not_admitted {k : FamilyConsts} (dist : Nat → Nat) {n pos : Nat} (p fuel : Nat)
    (hadm : admitted k n pos = false) :
    p ∈ (syncLoop k dist n fuel pos FrameLock.initial).found ↔
      (∃ i, p = pos + k.unit * i) ∧ admitted k n p = true ∧ dist p ≤ k.t0 := by
  rw [syncLoop_stop k dist n fuel pos _ hadm]
  refine iff_of_false List.not_mem_nil ?_
  rintro ⟨⟨i, rfl⟩, hframe, _⟩
  have hends := of_decide_eq_true hframe
  have hbeyond := of_decide_eq_false hadm
  omega

/-- The positions whole steps of `u` from a cursor on are the cursor and those whole steps from the next cursor on. -/
theorem exists_add_mul_iff (u pos p : Nat) :
    (∃ i, p = pos + u * i) ↔ p = pos ∨ ∃ i, p = pos + u + u * i := by
  constructor
  · rintro ⟨_ | i, hi⟩
    · exact .inl hi
    · exact .inr ⟨i, by rw [hi, Nat.mul_succ]; omega⟩
  · rintro (hp | ⟨i, hi⟩)
    · exact ⟨0, hp⟩
    · exact ⟨i + 1, by rw [hi, Nat.mul_succ]; omega⟩

/-- From a cursor on, with fuel for every bit left, the loop finds the positions whole UNITs further on that have a
frame behind them and a distance of at most T0. -/
theorem mem_syncLoop_found_of_not_locking {k : FamilyConsts} (hfree : k.locking = false) (hunit : 1 ≤ k.unit)
    (dist : Nat → Nat) {n p fuel pos : Nat} (hfuel : n < pos + fuel) :
    p ∈ (syncLoop k dist n fuel pos FrameLock.initial).found ↔
      (∃ i, p = pos + k.unit * i) ∧ admitted k n p = true ∧ dist p ≤ k.t0 := by
  induction fuel generalizing pos with
  | zero =>
    have hadm : admitted k n pos = false := decide_eq_false (by omega)
    exact mem_syncLoop_found_of_not_admitted dist p 0 hadm
  | succ fuel ih =>
    cases hadm : admitted k n pos with
    | false => exact mem_syncLoop_found_of_not_admitted dist p (fuel + 1) hadm
    | true =>
      have hhere : p ∈ (if accepted k FrameLock.initial (dist pos) then [pos] else []) ↔
          p = pos ∧ admitted k n p = true ∧ dist p ≤ k.t0 := by
        by_cases hp : p = pos
        · simp [hp, hadm, accepted_initial_iff]
        · simp [hp]
      rw [syncLoop_next_of_not_locking hfree dist fuel hadm, List.mem_append, ih (by omega), hhere, ← or_and_right,
        ← exists_add_mul_iff]

/-- R150 to R152: the whole pass of a machine that does not lock finds the multiples of UNIT that have a frame behind
them and a distance of at most T0. -/
theorem mem_syncPass_found_of_not_locking {k : FamilyConsts} (hfree : k.locking = false) (hunit : 1 ≤ k.unit)
    (dist : Nat → Nat) {n p : Nat} :
    p ∈ (syncPass k dist n).found ↔ k.unit ∣ p ∧ p + max k.w k.strideBits ≤ n ∧ dist p ≤ k.t0 := by
  rw [syncPass, mem_syncLoop_found_of_not_locking hfree hunit dist (by omega)]
  simp only [Nat.zero_add, admitted, decide_eq_true_eq]
  rfl

/-- Settles O34: an admitted record pins UNIT to 16, LOCKING to off and T0 to 0 in family D, so the pass is one of a
machine that does not lock, and the distance it asks for is that of six marker words. -/
theorem familyDFindsExactlyTheMarkers : Obligations.FamilyDFindsExactlyTheMarkers := by
  intro s hwf
  obtain ⟨_, hunit, hfree, ht0, _, _, hw⟩ := directAdmits_values (wf_direct hwf)
  refine ⟨fun p => ?found, fun n => ?trace, ?lock⟩
  case found =>
    calc p ∈ (sourcePass s .d).found
        ↔ s.cfg.d.unit ∣ p ∧ p + max s.cfg.d.w s.cfg.d.strideBits ≤ 8 * s.capLen ∧
            hammingD s.cfg.wordOrder s.cfg.d (capByte s) p ≤ s.cfg.d.t0 :=
          mem_syncPass_found_of_not_locking hfree (by omega) (sourceDistance s .d)
      _ ↔ p % 16 = 0 ∧ p + s.cfg.d.strideBits ≤ 8 * s.capLen ∧
            ∀ j, j < 6 → word16 s.cfg.wordOrder (capByte s) (p / 16 + j) = markerWord s.cfg.d j := by
          rw [hunit, ht0, max_eq_right hw, Nat.le_zero, hammingD_eq_zero_iff, Nat.dvd_iff_mod_eq_zero]
  case trace => rw [passTrace_of_not_locking hfree, hunit]; rfl
  case lock => exact syncLoop_lock_of_not_locking hfree _ _ _ _

end Sys2Proof.Machine
end

section
/-! PROOF. The shift register's bits in time (O22): the byte collected over eight shifts holds their output bits, and a
bit of the register moves one place up at each shift until it is put out, so that the register is the next eight output
bits and its feedback is the one that comes after them (R171). -/
namespace Sys2Proof.Machine

/-! ### One shift -/

theorem getLsbD_zero_lfsrShift (r : Byte) : (lfsrShift r).getLsbD 0 = lfsrFeedback r := by
  simp [lfsrShift]

theorem getLsbD_succ_lfsrShift (r : Byte) {j : Nat} (hj : j < 7) : (lfsrShift r).getLsbD (j + 1) = r.getLsbD j := by
  simp [lfsrShift, show j + 1 < 8 by omega, BitVec.getLsbD_eq_getElem (show j < 8 by omega)]

/-- Collecting a bit shifts those collected before up by one place. -/
theorem getLsbD_collected (v : Byte) (b : Bool) {j : Nat} (hj : j < 8) :
    ((v <<< 1) ||| (BitVec.ofBool b).setWidth 8).getLsbD j = if j = 0 then b else v.getLsbD (j - 1) := by
  cases j with
  | zero => simp
  | succ j => simp [hj, BitVec.getLsbD_eq_getElem (show j < 8 by omega)]

/-! ### The collected byte -/

/-- After `n` shifts the low `n` bits are the output bits, the last one lowest, and the bits before stand above them. -/
theorem getLsbD_lfsrCollect (n : Nat) (r v : Byte) {j : Nat} (hj : j < 8) :
    (lfsrCollect n r v).2.getLsbD j = if j < n then lfsrOut (lfsrShift^[n - 1 - j] r) else v.getLsbD (j - n) := by
  induction n generalizing r v with
  | zero => rfl
  | succ n ih =>
    rw [lfsrCollect, ih]
    rcases Nat.lt_trichotomy j n with hlt | rfl | hgt
    · rw [if_pos hlt, if_pos (by omega), ← Function.iterate_succ_apply,
        show (n - 1 - j).succ = n + 1 - 1 - j by omega]
    · rw [if_neg (Nat.lt_irrefl j), if_pos (Nat.lt_succ_self j), Nat.sub_self, getLsbD_collected _ _ (by omega),
        if_pos rfl, Nat.add_sub_cancel, Nat.sub_self, Function.iterate_zero_apply]
    · rw [if_neg (by omega), if_neg (by omega), getLsbD_collected _ _ (by omega), if_neg (by omega), Nat.sub_sub]

/-- R171: bit `n` of the output in time order is what shift `n` puts out. -/
theorem drBit_eq_lfsrOut (n : Nat) : drBit n = lfsrOut (lfsrAfter n) := by
  have hbit : n % 8 < 8 := Nat.mod_lt n (by omega)
  rw [drBit, drByte, lfsrByte, getLsbD_lfsrCollect _ _ _ (by omega), if_pos (by omega), iterate_lfsrShift,
    show 8 * (n / 8) + (8 - 1 - (7 - n % 8)) = n by omega]

/-! ### The register as the next eight output bits -/

/-- A bit of the register stands `i` places higher after `i` shifts. -/
theorem getLsbD_lfsrAfter_add (n i j : Nat) (h : j + i < 8) :
    (lfsrAfter (n + i)).getLsbD (j + i) = (lfsrAfter n).getLsbD j := by
  induction i with
  | zero => rfl
  | succ i ih =>
    calc (lfsrShift (lfsrAfter (n + i))).getLsbD (j + i + 1)
        = (lfsrAfter (n + i)).getLsbD (j + i) := getLsbD_succ_lfsrShift _ (by omega)
      _ = (lfsrAfter n).getLsbD j := ih (by omega)

/-- Bit `7 - i` of the register is put out after `i` more shifts. -/
theorem drBit_add (n : Nat) {i : Nat} (hi : i < 8) : drBit (n + i) = (lfsrAfter n).getLsbD (7 - i) := by
  rw [drBit_eq_lfsrOut, lfsrOut, ← getLsbD_lfsrAfter_add n i (7 - i) (by omega), Nat.sub_add_cancel (by omega)]

/-- The bit fed back at shift `n` enters at the low end and is put out at shift `n + 8`. -/
theorem drBit_add_eight (n : Nat) : drBit (n + 8) = lfsrFeedback (lfsrAfter n) :=
  calc drBit (n + 1 + 7)
      = (lfsrShift (lfsrAfter n)).getLsbD 0 := drBit_add (n + 1) (by omega)
    _ = lfsrFeedback (lfsrAfter n) := getLsbD_zero_lfsrShift _

/-- Settles O22: the first eight bits are those of the seed; the bit eight places on is the feedback, whose taps 7, 4, 2
and 0 are the output bits 0, 3, 5 and 7 places on. -/
theorem drBitsFollowTheRecurrence : Obligations.DrBitsFollowTheRecurrence := by
  constructor
  · intro n hn
    have hseed : ∀ j < 8, lfsrSeed.getLsbD j = true := by decide
    rw [← Nat.zero_add n, drBit_add 0 hn]
    exact hseed _ (by omega)
  · intro n
    have htap : ∀ i < 8, (lfsrAfter n).getLsbD (7 - i) = drBit (n + i) := fun i hi => (drBit_add n hi).symm
    calc drBit (n + 8)
        = lfsrFeedback (lfsrAfter n) := drBit_add_eight n
      _ = (drBit n ^^ drBit (n + 3) ^^ drBit (n + 5) ^^ drBit (n + 7)) := by
          rw [lfsrFeedback, htap 0 (by omega), htap 3 (by omega), htap 5 (by omega), htap 7 (by omega), Nat.add_zero]
      _ = (drBit (n + 7) ^^ drBit (n + 5) ^^ drBit (n + 3) ^^ drBit n) := by
          simp only [Bool.xor_assoc, Bool.xor_comm]

end Sys2Proof.Machine
end

section
/-! PROOF. DRGEN (O21): no check refuses it, its result is the generated table, and 8160 shifts are 32 whole periods of
the register, which is then back at its seed (R172, R174). -/
namespace Sys2Proof.Machine

/-! ### The period of the register -/

theorem lfsrAfter_255 : lfsrAfter 255 = lfsrSeed := by decide +kernel

/-- R172: the register repeats after 255 shifts. -/
theorem lfsrAfter_add_255 (n : Nat) : lfsrAfter (n + 255) = lfsrAfter n :=
  calc lfsrAfter (n + 255)
      = lfsrShift^[n] (lfsrAfter 255) := by rw [iterate_lfsrShift, Nat.add_comm]
    _ = lfsrShift^[n] (lfsrAfter 0) := by rw [lfsrAfter_255]; rfl
    _ = lfsrAfter n := by rw [iterate_lfsrShift, Nat.zero_add]

/-- After whole periods the register is back at its seed. -/
theorem lfsrAfter_period_mul (m : Nat) : lfsrAfter (255 * m) = lfsrSeed := by
  induction m with
  | zero => rfl
  | succ m ih => rw [Nat.mul_succ, lfsrAfter_add_255, ih]

/-! ### What DRGEN leaves -/

/-- Generating `n` bytes shifts the register `8 n` times. -/
theorem lfsrBytes_register (n m : Nat) : (lfsrBytes n (lfsrAfter m)).1 = lfsrAfter (m + 8 * n) := by
  induction n generalizing m with
  | zero => rfl
  | succ n ih =>
    calc (lfsrBytes n (lfsrByte (lfsrAfter m)).1).1
        = (lfsrBytes n (lfsrAfter (m + 8))).1 := by rw [lfsrByte, lfsrCollect_register, iterate_lfsrShift]
      _ = lfsrAfter (m + 8 * (n + 1)) := by rw [ih, Nat.mul_succ, Nat.add_assoc, Nat.add_comm 8]

/-- Each run of 255 bytes takes eight whole periods of shifts. -/
theorem lfsrBytes_register_of_dvd {n : Nat} (h : 255 ∣ n) : (lfsrBytes n lfsrSeed).1 = lfsrSeed := by
  obtain ⟨m, rfl⟩ := h
  calc (lfsrBytes (255 * m) (lfsrAfter 0)).1
      = lfsrAfter (255 * (8 * m)) := by rw [lfsrBytes_register, Nat.zero_add, Nat.mul_left_comm]
    _ = lfsrSeed := lfsrAfter_period_mul (8 * m)

theorem drGenerate_register : drGenerate.1 = lfsrSeed := by
  rw [drGenerate, lfsrBytes_register_of_dvd (by decide)]

theorem lfsr_drgenResult (s : State) : (drgenResult s).lfsr = lfsrSeed := by
  rw [drgenResult, drGenerate_register]

/-- R172, R173: the table read back after DRGEN. -/
theorem drtByte_drgenResult (s : State) {i : Nat} (hi : i < 1024) :
    drtByte (drgenResult s) i = if i < 4 then 0x00#8 else drByte (i - 4) := by
  rw [drtByte, drgenResult, Memory.read_ofList, drGenerate_get i hi, Option.getD_some]

/-- DRGEN writes DRT with `lfsr` and no other part. -/
theorem keptBut_drgenResult (s : State) : KeptBut [.drt] s (drgenResult s) := by
  intro p hp
  have hsame : PartKept p s s := partKept_refl p s
  cases p
  case drt => exact absurd (List.mem_singleton_self _) hp
  all_goals exact hsame

/-- Settles O21: DRGEN has no check, so from every state it ends with its result. -/
theorem drgenWritesTheTable : Obligations.DrgenWritesTheTable := by
  intro s
  have hexec : exec .drgen s = .next (endCommand (drgenResult s)) := exec_of_passed rfl
  have hflags : FlagsKeptBut [] s (drgenResult s) := flagsKeptBut_of_status_eq rfl
  have hlfsr : (endCommand (drgenResult s)).lfsr = lfsrSeed := by rw [endCommand_lfsr, lfsr_drgenResult]
  exact ⟨endCommand (drgenResult s), hexec, ended_endCommand _, fun _ hi => drtByte_drgenResult s hi,
    hlfsr, flagsKeptBut_endCommand hflags, rfl, keptBut_endCommand (keptBut_drgenResult s)⟩

end Sys2Proof.Machine
end

section
/-! PROOF. The ends both demultiplexing commands share (O36, O37): their checks are those of a command legal in one family
that requires one VALID bit, and both store their result with `putDemux` (R37, R182, R188, R244, R246). -/
namespace Sys2Proof.Machine

/-! ### The checks of a command legal in one family -/

/-- The checks of a command that is legal in family `f` alone, requires VALID bit `v` there, and uses no channel and no
argument (R243, R244, R246). -/
def soleRefusal (f : Family) (v : ValidBit) (s : State) : Option ErrFlag :=
  match family s with
  | none => some .errArg
  | some g => if g = f ∧ validBit s v = true then none else some .errSeq

theorem demuxdRefusal_eq_sole (s : State) : demuxdRefusal s = soleRefusal .m .fs s := by
  unfold demuxdRefusal soleRefusal
  rcases family s with _ | _ | _ | _ <;> simp

theorem demuxmRefusal_eq_sole (s : State) : demuxmRefusal s = soleRefusal .c .fs s := by
  unfold demuxmRefusal soleRefusal
  rcases family s with _ | _ | _ | _ <;> simp

theorem soleRefusal_passed {f : Family} {v : ValidBit} {s : State} (hfam : family s = some f)
    (hvalid : validBit s v = true) : soleRefusal f v s = none := by
  rw [soleRefusal, hfam]
  exact if_pos ⟨rfl, hvalid⟩

theorem soleRefusal_seq {f g : Family} {v : ValidBit} {s : State} (hfam : family s = some g)
    (hbad : ¬ (g = f ∧ validBit s v = true)) : soleRefusal f v s = some .errSeq := by
  rw [soleRefusal, hfam]
  exact if_neg hbad

/-- R246: for such a command the flag that applies first is the one these checks name. -/
theorem soleRefusal_of_firstRefusal {i : Instr} {f : Family} {v : ValidBit} {s : State} {e : ErrFlag}
    (hlegal : ∀ g, legalIn i g = decide (g = f)) (hrequired : requiredValid i f = some v)
    (hrange : ∀ g, ¬ (ChannelBad i g s ∨ ArgumentBad i g s)) (h : FirstRefusal i s e) :
    soleRefusal f v s = some e := by
  cases h with
  | reservedFamily _ hfam => rw [soleRefusal, hfam]
  | wrongFamily g _ hfam hillegal =>
    rw [hlegal g] at hillegal
    exact soleRefusal_seq hfam fun ⟨hg, _⟩ => of_decide_eq_false hillegal hg
  | notValid g w hfam hg hw hinvalid =>
    rw [hlegal g] at hg
    obtain rfl : g = f := of_decide_eq_true hg
    obtain rfl : v = w := Option.some.inj (hrequired.symm.trans hw)
    exact soleRefusal_seq hfam fun ⟨_, hvalid⟩ => Bool.false_ne_true (hinvalid.symm.trans hvalid)
  | outOfRange g _ _ _ hbad => exact absurd hbad (hrange g)

/-! ### What `putDemux` leaves -/

variable (bytes : List Byte) (boundaries : List Nat) (s : State)

theorem putDemux_status : (putDemux bytes boundaries s).status = (putFlag .empty bytes.isEmpty s).status := by
  cases bytes <;> rfl

theorem putDemux_valid :
    (putDemux bytes boundaries s).valid = (setValid .dmx (clearValid demuxClears s)).valid := by
  cases bytes <;> rfl

/-- R182, R188: `putDemux` writes EMPTY and no other flag. -/
theorem flag_putDemux (g : StatusFlag) :
    flag (putDemux bytes boundaries s) g = if g = .empty then bytes.isEmpty else flag s g := by
  rw [← flag_putFlag, flag, putDemux_status, flag]

theorem flagsKeptBut_putDemux : FlagsKeptBut [.empty] s (putDemux bytes boundaries s) :=
  ⟨fun g hg => by rw [flag_putDemux, if_neg (List.ne_of_not_mem_cons hg)],
    by rw [putDemux_status, reserved_putFlag]⟩

/-- R37: the bits of DMX and of everything downstream are cleared, and then V_DMX is set. -/
theorem validBit_putDemux (v : ValidBit) :
    validBit (putDemux bytes boundaries s) v = (validBit s v && !decide (v ∈ demuxClears) || decide (v = .dmx)) := by
  rw [← validBit_clearValid, ← validBit_setValid, validBit, putDemux_valid, validBit]

theorem validKeptBut_putDemux : ValidKeptBut demuxClears s (putDemux bytes boundaries s) := by
  refine ⟨fun v hv => ?_, by rw [putDemux_valid, reserved_setValid, reserved_clearValid]⟩
  have hdmx : v ≠ .dmx := fun h => hv (h ▸ List.mem_cons_self)
  rw [validBit_putDemux, decide_eq_false hv, decide_eq_false hdmx, Bool.not_false, Bool.and_true, Bool.or_false]

theorem keptBut_putDemux : KeptBut [.dmx, .bnd] s (putDemux bytes boundaries s) := by
  intro p hp
  have hsame : PartKept p s s := partKept_refl p s
  cases p
  case dmx => exact absurd hp (by decide)
  case bnd => exact absurd hp (by decide)
  all_goals cases bytes <;> exact hsame

theorem dmxByte_putDemux {k : Nat} {b : Byte} (h : bytes[k]? = some b) :
    dmxByte (putDemux bytes boundaries s) k = b := by
  obtain ⟨_, _, hdmx, _⟩ := putDemux_reads bytes boundaries s
  rw [dmxByte, hdmx, h, Option.getD_some]

theorem bndElem_putDemux {k n : Nat} (h : boundaries[k]? = some n) :
    bndElem (putDemux bytes boundaries s) k = n := by
  obtain ⟨_, _, _, hbnd⟩ := putDemux_reads bytes boundaries s
  rw [bndElem, hbnd, h, Option.getD_some]

/-- The flags, the VALID bits and the parts at the end of a demultiplexing command, whatever it stored. -/
theorem endCommand_putDemux_frame :
    let t := endCommand (putDemux bytes boundaries s)
    flag t .empty = decide (t.dmxLen = 0) ∧ FlagsKeptBut [.busy, .done, .empty] s t ∧
      validBit t .dmx = true ∧ validBit t .spn = false ∧ validBit t .pix = false ∧ validBit t .chi = false ∧
      ValidKeptBut [.dmx, .spn, .pix, .chi] s t ∧ KeptBut [.dmx, .bnd] s t := by
  have hvalid := validBit_putDemux bytes boundaries s
  obtain ⟨hlen, _⟩ := putDemux_reads bytes boundaries s
  have hempty : flag (endCommand (putDemux bytes boundaries s)) .empty =
      decide ((endCommand (putDemux bytes boundaries s)).dmxLen = 0) := by
    rw [flag_endCommand, flag_putDemux, endCommand_dmxLen, hlen]
    cases bytes <;> rfl
  have hcleared : ∀ v ∈ demuxClears, v ≠ .dmx → validBit (putDemux bytes boundaries s) v = false := by
    intro v hv hdmx
    rw [hvalid, decide_eq_true hv, decide_eq_false hdmx, Bool.not_true, Bool.and_false, Bool.or_false]
  exact ⟨hempty, flagsKeptBut_endCommand (flagsKeptBut_putDemux bytes boundaries s),
    (hvalid .dmx).trans (Bool.or_true _), hcleared .spn (by decide) (by decide), hcleared .pix (by decide) (by decide),
    hcleared .chi (by decide) (by decide), validKeptBut_putDemux bytes boundaries s,
    keptBut_endCommand (keptBut_putDemux bytes boundaries s)⟩

end Sys2Proof.Machine
end

section
/-! PROOF. Places in a list of pieces set one behind the other: piece `i` starts behind all pieces before it. -/
namespace Sys2Proof.Machine

variable {α β : Type}

/-- Element `j` of piece `i` stands `j` places behind the pieces before it. -/
theorem getElem?_flatMap_range (g : Nat → List α) {n i j : Nat} (hi : i < n) (hj : j < (g i).length) :
    ((List.range n).flatMap g)[((List.range i).flatMap g).length + j]? = (g i)[j]? := by
  obtain ⟨m, rfl⟩ : ∃ m, n = i + (m + 1) := ⟨n - i - 1, by omega⟩
  have hsplit : (List.range (i + (m + 1))).flatMap g =
      (List.range i).flatMap g ++ (g i ++ (List.range m).flatMap fun k => g (i + (k + 1))) := by
    rw [List.range_add, List.range_succ_eq_map]
    simp [List.flatMap_map]
  rw [hsplit, List.getElem?_append_right (Nat.le_add_right _ _), Nat.add_sub_cancel_left,
    List.getElem?_append_left hj]

/-- Pieces of one length. -/
theorem length_flatMap_const (g : α → List β) (l : List α) {n : Nat} (h : ∀ a, (g a).length = n) :
    (l.flatMap g).length = l.length * n := by
  simp [List.length_flatMap, h]

/-- Pieces of one length where a condition holds, and empty ones elsewhere. -/
theorem length_flatMap_ite (p : α → Bool) (g : α → List β) (l : List α) {n : Nat} (h : ∀ a, (g a).length = n) :
    (l.flatMap fun a => if p a then g a else []).length = n * l.countP p := by
  induction l with
  | nil => rfl
  | cons a l ih =>
    rw [List.flatMap_cons, List.length_append, ih, List.countP_cons, Nat.mul_add, Nat.add_comm]
    cases p a <;> simp [h]

end Sys2Proof.Machine
end

section
/-! PROOF. DEMUXD (O36): each frame contributes as many bytes as its spans are long, so that a byte's place in DMX is the
frames before it, the spans before it in its frame, and its place in its span (R182). -/
namespace Sys2Proof.Machine

variable (c : Config) (S : Nat → Bool)

theorem spanOf_length (fs i : Nat) : (spanOf c S fs i).length = c.dxLen.getD i 0 := by simp [spanOf]

theorem spanOf_get (fs : Nat) {i j : Nat} (hj : j < c.dxLen.getD i 0) :
    (spanOf c S fs i)[j]? = some (byteAt S (fs + c.dxOff.getD i 0 + 8 * j)) := by
  rw [spanOf, List.getElem?_map, List.getElem?_range hj, Option.map_some]

/-- The first `i` spans of a frame have the total of their lengths. -/
theorem spans_length (fs i : Nat) : ((List.range i).flatMap (spanOf c S fs)).length = spanTotal c i := by
  simp only [List.length_flatMap, spanOf_length, spanTotal]

theorem directFrame_length (fs : Nat) : (directFrame c S fs).length = spanTotal c c.dxN :=
  spans_length c S fs c.dxN

/-- R182: byte `j` of span `i` stands behind the spans before it. -/
theorem directFrame_get (fs : Nat) {i j : Nat} (hi : i < c.dxN) (hj : j < c.dxLen.getD i 0) :
    (directFrame c S fs)[spanTotal c i + j]? = some (byteAt S (fs + c.dxOff.getD i 0 + 8 * j)) := by
  rw [directFrame, ← spans_length c S fs i, getElem?_flatMap_range _ hi (by rwa [spanOf_length]), spanOf_get c S fs hj]

/-- R180: the frames of DEMUXD by their number. -/
theorem demuxdBytes_eq (s : State) :
    demuxdBytes s =
      (List.range s.fsCount).flatMap fun f => directFrame s.cfg (bits s.cfg.m (ldbByte s)) (fsElem s f) := by
  rw [demuxdBytes, frameStarts, List.flatMap_map]

theorem demuxdBytes_length (s : State) : (demuxdBytes s).length = s.fsCount * spanTotal s.cfg s.cfg.dxN := by
  rw [demuxdBytes_eq, length_flatMap_const _ _ fun _ => directFrame_length _ _ _, List.length_range]

/-- R182: byte `j` of span `i` of frame `f` stands behind the frames before it and the spans before it in its frame. -/
theorem demuxdBytes_get (s : State) {f i j : Nat} (hf : f < s.fsCount) (hi : i < s.cfg.dxN)
    (hj : j < s.cfg.dxLen.getD i 0) :
    (demuxdBytes s)[f * spanTotal s.cfg s.cfg.dxN + spanTotal s.cfg i + j]? =
      some (byteAt (bits s.cfg.m (ldbByte s)) (fsElem s f + s.cfg.dxOff.getD i 0 + 8 * j)) := by
  have hspan := directFrame_get s.cfg (bits s.cfg.m (ldbByte s)) (fsElem s f) hi hj
  obtain ⟨hinside, _⟩ := List.getElem?_eq_some_iff.1 hspan
  have hplace := getElem?_flatMap_range
    (fun f => directFrame s.cfg (bits s.cfg.m (ldbByte s)) (fsElem s f)) hf hinside
  rwa [length_flatMap_const _ _ fun _ => directFrame_length _ _ _, List.length_range, ← demuxdBytes_eq, hspan,
    ← Nat.add_assoc] at hplace

/-- Settles O36: the first refusal is the one DEMUXD's checks raise; in family M with V_FS they pass, and the command
stores the frames' spans and no boundary. -/
theorem demuxdConcatenatesTheSpans : Obligations.DemuxdConcatenatesTheSpans := by
  refine ⟨fun s e hrefused => exec_of_refused ?refused, fun s hfam hvalid => ?stored⟩
  case refused =>
    have hrange : ∀ g, ¬ (ChannelBad .demuxd g s ∨ ArgumentBad .demuxd g s) := by simp [ChannelBad, ArgumentBad]
    exact (demuxdRefusal_eq_sole s).trans (soleRefusal_of_firstRefusal (fun _ => rfl) rfl hrange hrefused)
  case stored =>
    have hpassed : demuxdRefusal s = none := (demuxdRefusal_eq_sole s).trans (soleRefusal_passed hfam hvalid)
    have hexec : exec .demuxd s = .next (endCommand (putDemux (demuxdBytes s) [] s)) := exec_of_passed hpassed
    obtain ⟨hlen, hbnd, _⟩ := putDemux_reads (demuxdBytes s) [] s
    exact ⟨_, hexec, ended_endCommand _, hlen.trans (demuxdBytes_length s),
      fun _ _ _ hf hi hj => dmxByte_putDemux _ _ _ (demuxdBytes_get s hf hi hj), hbnd,
      endCommand_putDemux_frame (demuxdBytes s) [] s⟩

end Sys2Proof.Machine
end

section
/-! PROOF. DEMUXM (O37): a frame appends 882 bytes or none and one boundary or none, so that the bytes before it are 882 for
each kept frame, and its boundary counts from there (R188 to R190). -/
namespace Sys2Proof.Machine

/-! ### What one frame appends -/

theorem dataZone_length (pay : Nat → Byte) : (dataZone pay).length = 882 := by simp [dataZone]

theorem dataZone_get (pay : Nat → Byte) {j : Nat} (hj : j < 882) : (dataZone pay)[j]? = some (pay (10 + j)) := by
  rw [dataZone, List.getElem?_map, List.getElem?_range hj, Option.map_some]

/-- R189: what frame `f` appends to DMX. -/
def keptBytes (s : State) (f : Nat) : List Byte := if keptFrame s f then dataZone (framePayload s f) else []

/-- R190: what frame `f` appends to BND. -/
def keptBoundary (s : State) (f : Nat) : List Nat :=
  if boundaryFrame s f then [882 * keptBefore s f + fhpOf (framePayload s f)] else []

theorem keptBytes_length (s : State) (n : Nat) :
    ((List.range n).flatMap (keptBytes s)).length = 882 * keptBefore s n :=
  length_flatMap_ite (keptFrame s) _ _ fun _ => dataZone_length _

theorem keptBoundary_length (s : State) (n : Nat) :
    ((List.range n).flatMap (keptBoundary s)).length = boundariesBefore s n :=
  (length_flatMap_ite (boundaryFrame s) (fun f => [882 * keptBefore s f + fhpOf (framePayload s f)]) _
    fun _ => rfl).trans (Nat.one_mul _)

/-- R189, R190: one frame of DEMUXM, behind 882 bytes for each frame kept before it. -/
theorem mpduFrame_eq (s : State) (f : Nat) (o : MpduOut) (hlen : o.bytes.length = 882 * keptBefore s f) :
    mpduFrame s.cfg.vcidSel (framePayload s f) o =
      { bytes := o.bytes ++ keptBytes s f, boundaries := o.boundaries ++ keptBoundary s f } := by
  by_cases hkept : vcidOf (framePayload s f) = s.cfg.vcidSel
  · by_cases hspare : spareOf (framePayload s f) = 0 <;>
      simp [mpduFrame, keptBytes, keptBoundary, boundaryFrame, keptFrame, hkept, hspare, hlen]
  · simp [mpduFrame, keptBytes, keptBoundary, boundaryFrame, keptFrame, hkept]

/-! ### What all frames append -/

theorem mpduFrames_concat (vcidSel : Nat) (pays : List (Nat → Byte)) (pay : Nat → Byte) (o : MpduOut) :
    mpduFrames vcidSel (pays ++ [pay]) o = mpduFrame vcidSel pay (mpduFrames vcidSel pays o) := by
  induction pays generalizing o with
  | nil => rfl
  | cons p pays ih => exact ih _

/-- R188: the first `n` frames append what each of them appends, in order. -/
theorem mpduFrames_range (s : State) (n : Nat) :
    mpduFrames s.cfg.vcidSel ((List.range n).map (framePayload s)) { bytes := [], boundaries := [] } =
      { bytes := (List.range n).flatMap (keptBytes s), boundaries := (List.range n).flatMap (keptBoundary s) } := by
  induction n with
  | zero => rfl
  | succ n ih =>
    rw [List.range_succ, List.map_append, List.map_singleton, mpduFrames_concat, ih,
      mpduFrame_eq s n _ (keptBytes_length s n)]
    simp

theorem demuxmOut_eq (s : State) :
    demuxmOut s = { bytes := (List.range s.fsCount).flatMap (keptBytes s)
                    boundaries := (List.range s.fsCount).flatMap (keptBoundary s) } := by
  rw [← mpduFrames_range, demuxmOut, frameStarts, List.map_map]
  rfl

theorem demuxmOut_bytes_length (s : State) : (demuxmOut s).bytes.length = 882 * keptBefore s s.fsCount := by
  rw [demuxmOut_eq, keptBytes_length]

theorem demuxmOut_boundaries_length (s : State) :
    (demuxmOut s).boundaries.length = boundariesBefore s s.fsCount := by
  rw [demuxmOut_eq, keptBoundary_length]

/-- R186, R189: data-zone byte `j` of a kept frame is frame byte `14 + j`, derandomized, and stands behind the bytes of
the frames kept before. -/
theorem demuxmOut_bytes_get (s : State) {f j : Nat} (hf : f < s.fsCount) (hkept : keptFrame s f = true)
    (hj : j < 882) :
    (demuxmOut s).bytes[882 * keptBefore s f + j]? =
      some (frameByte (bits s.cfg.c (capByte s)) (fsElem s f) (14 + j) ^^^ drtByte s (14 + j)) := by
  have hpiece : keptBytes s f = dataZone (framePayload s f) := if_pos hkept
  have hindex : 4 + (10 + j) = 14 + j := by omega
  rw [demuxmOut_eq, ← keptBytes_length, getElem?_flatMap_range _ hf (by rwa [hpiece, dataZone_length]), hpiece,
    dataZone_get _ hj, framePayload, payload, drMask, hindex]

/-- R190: the boundary of a frame that records one is the stream position before its bytes plus its pointer. -/
theorem demuxmOut_boundaries_get (s : State) {f : Nat} (hf : f < s.fsCount) (hbound : boundaryFrame s f = true) :
    (demuxmOut s).boundaries[boundariesBefore s f]? =
      some (882 * keptBefore s f + fhpOf (framePayload s f)) := by
  have hpiece : keptBoundary s f = [882 * keptBefore s f + fhpOf (framePayload s f)] := if_pos hbound
  have hplace := getElem?_flatMap_range (keptBoundary s) hf (j := 0) (by rw [hpiece]; exact Nat.one_pos)
  rw [demuxmOut_eq]
  rwa [keptBoundary_length, Nat.add_zero, hpiece, List.getElem?_cons_zero] at hplace

/-- Settles O37: the first refusal is the one DEMUXM's checks raise; in family C with V_FS they pass, and the command
stores the data zones and the boundaries of the kept frames. -/
theorem demuxmKeepsTheSelectedChannel : Obligations.DemuxmKeepsTheSelectedChannel := by
  refine ⟨fun s e hrefused => exec_of_refused ?refused, fun s hfam hvalid => ?stored⟩
  case refused =>
    have hrange : ∀ g, ¬ (ChannelBad .demuxm g s ∨ ArgumentBad .demuxm g s) := by simp [ChannelBad, ArgumentBad]
    exact (demuxmRefusal_eq_sole s).trans (soleRefusal_of_firstRefusal (fun _ => rfl) rfl hrange hrefused)
  case stored =>
    have hpassed : demuxmRefusal s = none := (demuxmRefusal_eq_sole s).trans (soleRefusal_passed hfam hvalid)
    have hexec : exec .demuxm s = .next (endCommand (putDemux (demuxmOut s).bytes (demuxmOut s).boundaries s)) :=
      exec_of_passed hpassed
    obtain ⟨hlen, hbnd, _⟩ := putDemux_reads (demuxmOut s).bytes (demuxmOut s).boundaries s
    exact ⟨_, hexec, ended_endCommand _, hlen.trans (demuxmOut_bytes_length s),
      fun _ _ hf hkept hj => dmxByte_putDemux _ _ _ (demuxmOut_bytes_get s hf hkept hj),
      hbnd.trans (demuxmOut_boundaries_length s),
      fun _ hf hbound => bndElem_putDemux _ _ _ (demuxmOut_boundaries_get s hf hbound),
      endCommand_putDemux_frame _ _ s⟩

end Sys2Proof.Machine
end

section
/-! PROOF. The scaled sample (O42): the record pins MULT in each family, and 1023 times 60 is below 65536, so the product
fits the 16-bit element (R8, R206). -/
namespace Sys2Proof.Machine

/-- R8: the multiplier an admitted record pins in each family (log 3). -/
theorem wf_mult {c : Config} (h : c.wf = true) (f : Family) : (c.family f).mult = if f = .d then 40 else 60 := by
  by_cases hf : f = .d
  · obtain ⟨_, _, _, _, hmult, _⟩ := directAdmits_values (wf_direct h)
    rw [if_pos hf, hf]
    exact hmult
  · obtain ⟨_, _, _, _, _, _, hmult, _⟩ := transportAdmits_values (wf_transport h hf)
    rw [if_neg hf, hmult]

/-- R206: a product that fits 16 bits is the element. -/
theorem scale_toNat {mult n : Nat} (h : n * mult < 2 ^ 16) : (scale mult n).toNat = n * mult := by
  rw [scale, BitVec.toNat_ofNat, Nat.mod_eq_of_lt h]

/-- Settles O42: the multiplier is at most 60, so no product of a sample reaches 65536. -/
theorem scalingIsExact : Obligations.ScalingIsExact := by
  intro c f hwf n hn
  have hmult : (c.family f).mult ≤ 60 := by rw [wf_mult hwf]; split <;> decide
  have hfits : n * (c.family f).mult < 2 ^ 16 :=
    calc n * (c.family f).mult ≤ 1023 * 60 := Nat.mul_le_mul hn hmult
      _ < 2 ^ 16 := by decide
  rw [scale_toNat hfits, wf_mult hwf]

end Sys2Proof.Machine
end

section
/-! PROOF. The checks of a command in the order of R246, said once for every command that uses the configuration: the
family code, the legal family, the required VALID bit, and then the ranges the command itself checks. -/
namespace Sys2Proof.Machine

/-- R244: the VALID bit command `i` requires in family `f` is 0. -/
def requiredMissing (i : Instr) (f : Family) (s : State) : Bool := (requiredValid i f).any fun v => !validBit s v

/-- The checks of command `i` in the order of R246; `bad` are the ranges it checks last. -/
def orderedRefusal (i : Instr) (bad : Family → Bool) (s : State) : Option ErrFlag :=
  match family s with
  | none => some .errArg
  | some f =>
    if legalIn i f then (if requiredMissing i f s then some .errSeq else if bad f then some .errArg else none)
    else some .errSeq

variable {i : Instr} {bad : Family → Bool} {s : State} {f : Family}

theorem requiredMissing_eq_false (h : ∀ v, requiredValid i f = some v → validBit s v = true) :
    requiredMissing i f s = false := by
  unfold requiredMissing
  cases hreq : requiredValid i f with
  | none => rfl
  | some v => rw [Option.any_some, h v hreq, Bool.not_true]

theorem orderedRefusal_legal (hfam : family s = some f) (hlegal : legalIn i f = true) :
    orderedRefusal i bad s =
      if requiredMissing i f s then some .errSeq else if bad f then some .errArg else none := by
  rw [orderedRefusal, hfam]
  exact if_pos hlegal

theorem orderedRefusal_illegal (hfam : family s = some f) (hillegal : legalIn i f = false) :
    orderedRefusal i bad s = some .errSeq := by
  rw [orderedRefusal, hfam]
  exact if_neg (Bool.eq_false_iff.1 hillegal)

/-- A legal command that requires VALID bit `v` checks `v` and then its ranges. -/
theorem orderedRefusal_requiring {v : ValidBit} (hfam : family s = some f) (hlegal : legalIn i f = true)
    (hreq : requiredValid i f = some v) :
    orderedRefusal i bad s = if validBit s v then (if bad f then some .errArg else none) else some .errSeq := by
  rw [orderedRefusal_legal hfam hlegal, requiredMissing, hreq, Option.any_some]
  cases validBit s v <;> rfl

theorem orderedRefusal_passed (hfam : family s = some f) (hlegal : legalIn i f = true)
    (hvalid : ∀ v, requiredValid i f = some v → validBit s v = true) (hrange : bad f = false) :
    orderedRefusal i bad s = none := by
  simp [orderedRefusal_legal hfam hlegal, requiredMissing_eq_false hvalid, hrange]

/-- R246: the flag that applies first is the one the ordered checks name, if these look at every bad range. -/
theorem orderedRefusal_of_firstRefusal {e : ErrFlag}
    (hrange : ∀ f, legalIn i f = true → ChannelBad i f s ∨ ArgumentBad i f s → bad f = true)
    (h : FirstRefusal i s e) : orderedRefusal i bad s = some e := by
  cases h with
  | reservedFamily _ hfam => rw [orderedRefusal, hfam]
  | wrongFamily f _ hfam hillegal => exact orderedRefusal_illegal hfam hillegal
  | notValid f v hfam hlegal hreq hinvalid => simp [orderedRefusal_requiring hfam hlegal hreq, hinvalid]
  | outOfRange f hfam hlegal hvalid hbad =>
    simp [orderedRefusal_legal hfam hlegal, requiredMissing_eq_false hvalid, hrange f hlegal hbad]

/-! ### The VALID bits a command writes -/

theorem validKeptBut_clearValid (vs : List ValidBit) (s : State) : ValidKeptBut vs s (clearValid vs s) :=
  ⟨fun v hv => by rw [validBit_clearValid, decide_eq_false hv, Bool.not_false, Bool.and_true],
    reserved_clearValid vs s⟩

theorem validKeptBut_setValid {vs : List ValidBit} {v : ValidBit} {s t : State} (hv : v ∈ vs)
    (h : ValidKeptBut vs s t) : ValidKeptBut vs s (setValid v t) := by
  obtain ⟨hbits, hreserved⟩ := h
  refine ⟨fun w hw => ?_, by rw [reserved_setValid, hreserved]⟩
  have hother : w ≠ v := fun hwv => hw (hwv ▸ hv)
  rw [validBit_setValid, decide_eq_false hother, Bool.or_false, hbits w hw]

end Sys2Proof.Machine
end

section
/-! PROOF. UNPK10 and UNPK16 (O43, O44): both check their family and the span of the ARG registers (UNPK10 V_DMX too), and
both store the scaled samples of a run with `putPix` (R202, R205, R210). -/
namespace Sys2Proof.Machine

/-! ### What `putPix` leaves -/

variable (samples : List Half) (s : State)

theorem pixElem_putPix {k : Nat} {v : Half} (h : samples[k]? = some v) : pixElem (putPix samples s) k = v := by
  obtain ⟨_, hread⟩ := putPix_reads samples s
  rw [pixElem, hread, h, Option.getD_some]

/-- R202, R205: V_PIX is set, and no other VALID bit is written. -/
theorem validBit_pix_putPix : validBit (putPix samples s) .pix = true := by
  rw [putPix, validBit_setValid, decide_eq_true rfl, Bool.or_true]

theorem validKeptBut_putPix : ValidKeptBut [.pix] s (putPix samples s) :=
  validKeptBut_setValid (List.mem_singleton_self _) (validKeptBut_clearValid [.pix] s)

theorem keptBut_putPix : KeptBut [.pix] s (putPix samples s) := by
  intro p hp
  have hsame : PartKept p s s := partKept_refl p s
  cases p
  case pix => exact absurd (List.mem_singleton_self _) hp
  all_goals exact hsame

/-- The flags, the VALID bits and the parts at the end of an unpacking command, whatever it stored. -/
theorem endCommand_putPix_frame :
    let t := endCommand (putPix samples s)
    FlagsKeptBut [.busy, .done] s t ∧ validBit t .pix = true ∧ ValidKeptBut [.pix] s t ∧ KeptBut [.pix] s t :=
  ⟨flagsKeptBut_endCommand (flagsKeptBut_of_status_eq rfl), validBit_pix_putPix samples s,
    validKeptBut_putPix samples s, keptBut_endCommand (keptBut_putPix samples s)⟩

/-! ### The run of samples -/

variable (f : Family)

theorem unpackRun_length (a n : Nat) : (unpackRun s f a n).length = n := by simp [unpackRun]

theorem unpackRun_get (a : Nat) {n k : Nat} (hk : k < n) :
    (unpackRun s f a n)[k]? = some (scale (s.cfg.family f).mult (unpackSample s f a k)) := by
  rw [unpackRun, List.getElem?_map, List.getElem?_range hk, Option.map_some]

theorem pixLen_putPix_unpackRun (a n : Nat) : (putPix (unpackRun s f a n) s).pixLen = n := by
  obtain ⟨hlen, _⟩ := putPix_reads (unpackRun s f a n) s
  rw [hlen, unpackRun_length]

theorem pixElem_putPix_unpackRun (a : Nat) {n k : Nat} (hk : k < n) :
    pixElem (putPix (unpackRun s f a n) s) k = scale (s.cfg.family f).mult (unpackSample s f a k) :=
  pixElem_putPix _ s (unpackRun_get s f a hk)

/-! ### UNPK10 -/

variable {s f}

theorem unpackSample_packed (hf : f ≠ .d) (a k : Nat) : unpackSample s f a k = sample10 (dmxByte s) a k := by
  cases f with
  | d => exact absurd rfl hf
  | m => rfl
  | c => rfl

/-- R210: in families M and C the span of the ARG registers is of packed samples in DMX. -/
theorem spanLeaves_packed_iff (hf : f ≠ .d) :
    spanLeaves s f = true ↔ s.dmxLen < s.argBase + (10 * s.argCount + 7) / 8 := by
  cases f with
  | d => exact absurd rfl hf
  | m => exact decide_eq_true_iff
  | c => exact decide_eq_true_iff

theorem unpk10Refusal_eq_ordered (s : State) : unpk10Refusal s = orderedRefusal .unpk10 (spanLeaves s) s := by
  rw [unpk10Refusal]
  cases hfam : family s with
  | none => rw [orderedRefusal, hfam]
  | some f =>
    cases f with
    | d => rw [orderedRefusal_illegal hfam rfl]
    | m => rw [orderedRefusal_requiring hfam rfl rfl]
    | c => rw [orderedRefusal_requiring hfam rfl rfl]

theorem unpk10Refusal_of_firstRefusal {e : ErrFlag} (h : FirstRefusal .unpk10 s e) : unpk10Refusal s = some e := by
  rw [unpk10Refusal_eq_ordered]
  refine orderedRefusal_of_firstRefusal (fun f hlegal hbad => ?_) h
  have hspan : s.dmxLen < s.argBase + (10 * s.argCount + 7) / 8 := by simpa [ChannelBad, ArgumentBad] using hbad
  exact (spanLeaves_packed_iff (of_decide_eq_true hlegal)).2 hspan

theorem unpk10Refusal_passed (hfam : family s = some f) (hf : f ≠ .d) (hvalid : validBit s .dmx = true)
    (hspan : s.argBase + (10 * s.argCount + 7) / 8 ≤ s.dmxLen) : unpk10Refusal s = none := by
  rw [unpk10Refusal_eq_ordered]
  refine orderedRefusal_passed hfam (decide_eq_true hf) (fun v hv => Option.some.inj hv ▸ hvalid) ?_
  rw [Bool.eq_false_iff, Ne, spanLeaves_packed_iff hf]
  exact Nat.not_lt.2 hspan

theorem unpk10Result_eq (hfam : family s = some f) :
    unpk10Result s = putPix (unpackRun s f s.argBase s.argCount) s := by rw [unpk10Result, hfam]

/-- Settles O43: the first refusal is the one UNPK10's checks raise; in families M and C with V_DMX and the span inside
DMX they pass, and the command stores the run's scaled packed samples. -/
theorem unpkTenFillsPix : Obligations.UnpkTenFillsPix := by
  refine ⟨fun s e hrefused => exec_of_refused (unpk10Refusal_of_firstRefusal hrefused),
    fun s f hfam hf hvalid hspan => ?_⟩
  have hexec : exec .unpk10 s = .next (endCommand (putPix (unpackRun s f s.argBase s.argCount) s)) := by
    rw [← unpk10Result_eq hfam]
    exact exec_of_passed (unpk10Refusal_passed hfam hf hvalid hspan)
  refine ⟨_, hexec, ended_endCommand _, pixLen_putPix_unpackRun s f _ _, fun k hk => ?_,
    endCommand_putPix_frame _ s⟩
  rw [← unpackSample_packed hf]
  exact pixElem_putPix_unpackRun s f _ hk

/-! ### UNPK16 -/

/-- R204: the second byte of a big-endian word stands below the first. -/
theorem toNat_append_bytes (a b : Byte) : (a ++ b).toNat = 256 * a.toNat + b.toNat := by
  rw [BitVec.toNat_append, ← Nat.shiftLeft_add_eq_or_of_lt b.isLt, Nat.shiftLeft_eq, Nat.mul_comm]

/-- R106, R205: the mask 0x03FF keeps the low ten bits of the word. -/
theorem sample16_eq_mod (order : WordOrder) (B : Nat → Byte) (a k : Nat) :
    sample16 order B a k = (wordOf order (B (a + 2 * k)) (B (a + 2 * k + 1))).toNat % 1024 := by
  rw [sample16, BitVec.toNat_and]
  exact Nat.and_two_pow_sub_one_eq_mod _ 10

theorem sample16_le (B : Nat → Byte) (a k : Nat) :
    sample16 .le B a k = ((B (a + 2 * k)).toNat + 256 * (B (a + 2 * k + 1)).toNat) % 1024 := by
  rw [sample16_eq_mod, wordOf, toNat_append_bytes, Nat.add_comm]

theorem sample16_be (B : Nat → Byte) (a k : Nat) :
    sample16 .be B a k = (256 * (B (a + 2 * k)).toNat + (B (a + 2 * k + 1)).toNat) % 1024 := by
  rw [sample16_eq_mod, wordOf, toNat_append_bytes]

/-- R210: in family D the span of the ARG registers is of words in CAP. -/
theorem spanLeaves_words_iff : spanLeaves s .d = true ↔ s.capLen < s.argBase + 2 * s.argCount := decide_eq_true_iff

theorem unpk16Refusal_eq_ordered (s : State) : unpk16Refusal s = orderedRefusal .unpk16 (spanLeaves s) s := by
  rw [unpk16Refusal]
  cases hfam : family s with
  | none => rw [orderedRefusal, hfam]
  | some f =>
    cases f with
    | d => rw [orderedRefusal_legal hfam rfl]; rfl
    | m => rw [orderedRefusal_illegal hfam rfl]
    | c => rw [orderedRefusal_illegal hfam rfl]

theorem unpk16Refusal_of_firstRefusal {e : ErrFlag} (h : FirstRefusal .unpk16 s e) : unpk16Refusal s = some e := by
  rw [unpk16Refusal_eq_ordered]
  refine orderedRefusal_of_firstRefusal (fun f hlegal hbad => ?_) h
  have hspan : s.capLen < s.argBase + 2 * s.argCount := by simpa [ChannelBad, ArgumentBad] using hbad
  obtain rfl : f = .d := of_decide_eq_true hlegal
  exact spanLeaves_words_iff.2 hspan

theorem unpk16Refusal_passed (hfam : family s = some .d) (hspan : s.argBase + 2 * s.argCount ≤ s.capLen) :
    unpk16Refusal s = none := by
  rw [unpk16Refusal_eq_ordered]
  refine orderedRefusal_passed hfam rfl (fun v hv => by cases hv) ?_
  rw [Bool.eq_false_iff, Ne, spanLeaves_words_iff]
  exact Nat.not_lt.2 hspan

/-- Settles O44: the first refusal is the one UNPK16's checks raise; in family D with the span inside CAP they pass, and
the command stores the run's scaled word samples, whose value the word order gives. -/
theorem unpkSixteenFillsPix : Obligations.UnpkSixteenFillsPix := by
  refine ⟨fun s e hrefused => exec_of_refused (unpk16Refusal_of_firstRefusal hrefused), fun s hfam hspan => ?_⟩
  have hexec : exec .unpk16 s = .next (endCommand (putPix (unpackRun s .d s.argBase s.argCount) s)) :=
    exec_of_passed (unpk16Refusal_passed hfam hspan)
  refine ⟨_, hexec, ended_endCommand _, pixLen_putPix_unpackRun s .d _ _, fun k hk => ?_,
    endCommand_putPix_frame _ s⟩
  have helem : pixElem (putPix (unpackRun s .d s.argBase s.argCount) s) k =
      scale s.cfg.d.mult (sample16 s.cfg.wordOrder (capByte s) s.argBase k) :=
    pixElem_putPix_unpackRun s .d _ hk
  refine Eq.trans helem ?_
  cases s.cfg.wordOrder with
  | le => rw [sample16_le]
  | be => rw [sample16_be]

end Sys2Proof.Machine
end

section
/-! PROOF. CHSEL (O45): its checks are V_PIX, the channel, the length of PIX and the row, and its result is one row of CHI,
the row count and V_CHI (R208, R209). -/
namespace Sys2Proof.Machine

/-! ### The checks -/

/-- R209, R243: the ranges CHSEL checks. -/
def chselOutOfRange (s : State) (f : Family) : Bool :=
  channelIllegal s f || decide (s.pixLen ≠ (s.cfg.family f).nch * (s.cfg.family f).width) ||
    decide (s.chiRows < s.argRow)

variable {s : State} {f : Family}

theorem chselRefusal_eq_ordered (s : State) : chselRefusal s = orderedRefusal .chsel (chselOutOfRange s) s := by
  rw [chselRefusal]
  cases hfam : family s with
  | none => rw [orderedRefusal, hfam]
  | some f =>
    rw [orderedRefusal_requiring hfam rfl rfl]
    cases validBit s .pix with
    | false => rfl
    | true => simp [chselOutOfRange, ite_or]

theorem channelIllegal_iff : channelIllegal s f = true ↔ channel s = 0 ∨ (s.cfg.family f).nch < channel s := by
  simp [channelIllegal]

theorem chselOutOfRange_iff : chselOutOfRange s f = true ↔ ChannelBad .chsel f s ∨ ArgumentBad .chsel f s := by
  simp [chselOutOfRange, channelIllegal_iff, ChannelBad, ArgumentBad, or_assoc]

theorem chselRefusal_of_firstRefusal {e : ErrFlag} (h : FirstRefusal .chsel s e) : chselRefusal s = some e := by
  rw [chselRefusal_eq_ordered]
  exact orderedRefusal_of_firstRefusal (fun _ _ hbad => chselOutOfRange_iff.2 hbad) h

theorem chselRefusal_passed (hfam : family s = some f) (hvalid : validBit s .pix = true) (hlow : 1 ≤ channel s)
    (hhigh : channel s ≤ (s.cfg.family f).nch)
    (hlen : s.pixLen = (s.cfg.family f).nch * (s.cfg.family f).width) (hrow : s.argRow ≤ s.chiRows) :
    chselRefusal s = none := by
  rw [chselRefusal_eq_ordered]
  refine orderedRefusal_passed hfam rfl (fun v hv => Option.some.inj hv ▸ hvalid) ?_
  have hchannel : channelIllegal s f = false := by
    rw [Bool.eq_false_iff, Ne, channelIllegal_iff]
    omega
  simp [chselOutOfRange, hchannel, hlen, hrow]

/-! ### The row and the rest of CHI -/

theorem chselResult_eq (hfam : family s = some f) : chselResult s = chselResultIn f s := by rw [chselResult, hfam]

variable (s f)

theorem chselRow_length : (chselRow s f).length = (s.cfg.family f).width := by simp [chselRow]

/-- R208, R209: pixel `p` of the row CHSEL writes. -/
theorem chiElem_chselResultIn_row {p : Nat} (hp : p < (s.cfg.family f).width) :
    chiElem (chselResultIn f s) (s.argRow * (s.cfg.family f).width + p) =
      pixElem s (chanIndex (s.cfg.family f).nch (channel s) p) := by
  have hinside : p < (chselRow s f).length := by rwa [chselRow_length]
  rw [chiElem, chselResultIn, Memory.read_writeList_inside _ _ _ _ hinside, Option.getD_some]
  simp [chselRow]

/-- R209: no element outside the row is written. -/
theorem chiElem_chselResultIn_other {k : Nat}
    (hk : k < s.argRow * (s.cfg.family f).width ∨
      s.argRow * (s.cfg.family f).width + (s.cfg.family f).width ≤ k) :
    chiElem (chselResultIn f s) k = chiElem s k := by
  have houtside := Memory.read_writeList_outside (chselRow s f) s.chi (s.argRow * (s.cfg.family f).width) k
    (by rwa [chselRow_length])
  rw [chiElem, chselResultIn, houtside]
  rfl

theorem validBit_chi_chselResultIn : validBit (chselResultIn f s) .chi = false :=
  calc validBit (chselResultIn f s) .chi
      = validBit (clearValid [.chi] s) .chi := rfl
    _ = false := by rw [validBit_clearValid, decide_eq_true (List.mem_singleton_self _), Bool.not_true, Bool.and_false]

theorem validKeptBut_chselResultIn : ValidKeptBut [.chi] s (chselResultIn f s) :=
  validKeptBut_clearValid [.chi] s

/-- CHSEL writes CHI and no other part. -/
theorem keptBut_chselResultIn : KeptBut [.chi] s (chselResultIn f s) := by
  intro p hp
  have hsame : PartKept p s s := partKept_refl p s
  cases p
  case chi => exact absurd (List.mem_singleton_self _) hp
  all_goals exact hsame

/-- Settles O45: the first refusal is the one CHSEL's checks raise; where they pass, the command writes the row at
`ARG_ROW * WIDTH` of CHI, and the elements before and behind it stand. -/
theorem chselWritesOneRow : Obligations.ChselWritesOneRow := by
  refine ⟨fun s e hrefused => exec_of_refused (chselRefusal_of_firstRefusal hrefused),
    fun s f hfam hvalid hlow hhigh hlen hrow => ?_⟩
  have hexec : exec .chsel s = .next (endCommand (chselResultIn f s)) := by
    rw [← chselResult_eq hfam]
    exact exec_of_passed (chselRefusal_passed hfam hvalid hlow hhigh hlen hrow)
  have hflags : FlagsKeptBut [] s (chselResultIn f s) := flagsKeptBut_of_status_eq rfl
  exact ⟨_, hexec, ended_endCommand _, fun _ hp => chiElem_chselResultIn_row s f hp,
    fun _ hk => chiElem_chselResultIn_other s f hk, rfl, flagsKeptBut_endCommand hflags,
    validBit_chi_chselResultIn s f, validKeptBut_chselResultIn s f, keptBut_endCommand (keptBut_chselResultIn s f)⟩

end Sys2Proof.Machine
end

section
/-! PROOF. What a command's result writes in STATUS, said once for every command but RESET: EMPTY and SKIP at most, so
that an error flag falls to no command but RESET (O19; R36, R221, R240). -/
namespace Sys2Proof.Machine

theorem flagsKeptBut_mono {but more : List StatusFlag} {s t : State} (hsub : but ⊆ more)
    (h : FlagsKeptBut but s t) : FlagsKeptBut more s t := by
  obtain ⟨hflags, hreserved⟩ := h
  exact ⟨fun g hg => hflags g fun hbut => hg (hsub hbut), hreserved⟩

theorem flagsKeptBut_putFlag {but : List StatusFlag} {f : StatusFlag} {s t : State} (b : Bool) (hf : f ∈ but)
    (h : FlagsKeptBut but s t) : FlagsKeptBut but s (putFlag f b t) := by
  obtain ⟨hflags, hreserved⟩ := h
  refine ⟨fun g hg => ?_, by rw [reserved_putFlag, hreserved]⟩
  have hother : g ≠ f := fun hgf => hg (hgf ▸ hf)
  rw [flag_putFlag, if_neg hother, hflags g hg]

/-- R152: SYNC writes EMPTY and no other flag. -/
theorem flagsKeptBut_syncResult (s : State) : FlagsKeptBut [.empty] s (syncResult s) := by
  have hsame : FlagsKeptBut [.empty] s s := ⟨fun _ _ => rfl, rfl⟩
  unfold syncResult
  split
  · exact flagsKeptBut_putFlag _ (List.mem_singleton_self _) hsame
  · exact hsame

/-- R226: SPANS writes SKIP and no other flag. -/
theorem flagsKeptBut_spansResult (s : State) : FlagsKeptBut [.skip] s (spansResult s) := by
  have hsame : FlagsKeptBut [.skip] s s := ⟨fun _ _ => rfl, rfl⟩
  exact flagsKeptBut_putFlag _ (List.mem_singleton_self _) hsame

/-- R228: DECCH writes EMPTY and no other flag. -/
theorem flagsKeptBut_decchResult (s : State) : FlagsKeptBut [.empty] s (decchResult s) := by
  have hsame : FlagsKeptBut [.empty] s s := ⟨fun _ _ => rfl, rfl⟩
  unfold decchResult
  split
  · exact flagsKeptBut_putFlag _ (List.mem_singleton_self _) hsame
  · exact hsame

/-- R202: UNPK10 writes no flag. -/
theorem status_unpk10Result (s : State) : (unpk10Result s).status = s.status := by
  unfold unpk10Result
  split <;> rfl

/-- R209: CHSEL writes no flag. -/
theorem status_chselResult (s : State) : (chselResult s).status = s.status := by
  unfold chselResult
  split <;> rfl

/-- R36, R240: no command's result but that of RESET writes a flag other than EMPTY and SKIP. -/
theorem flagsKeptBut_resultOf {i : Instr} (hi : i ≠ .reset) (s : State) :
    FlagsKeptBut [.empty, .skip] s (resultOf i s) := by
  have hempty : [StatusFlag.empty] ⊆ [.empty, .skip] := by simp
  have hskip : [StatusFlag.skip] ⊆ [.empty, .skip] := by simp
  have hstatus : ∀ t : State, t.status = s.status → FlagsKeptBut [.empty, .skip] s t := fun t ht =>
    flagsKeptBut_mono (List.nil_subset _) (flagsKeptBut_of_status_eq ht)
  cases i with
  | reset => exact absurd rfl hi
  | nop => exact hstatus _ rfl
  | drgen => exact hstatus _ rfl
  | ldec => exact hstatus _ rfl
  | sync => exact flagsKeptBut_mono hempty (flagsKeptBut_syncResult s)
  | demuxd => exact flagsKeptBut_mono hempty (flagsKeptBut_putDemux _ _ s)
  | demuxm => exact flagsKeptBut_mono hempty (flagsKeptBut_putDemux _ _ s)
  | spans => exact flagsKeptBut_mono hskip (flagsKeptBut_spansResult s)
  | unpk10 => exact hstatus _ (status_unpk10Result s)
  | unpk16 => exact hstatus _ rfl
  | chsel => exact hstatus _ (status_chselResult s)
  | decch => exact flagsKeptBut_mono hempty (flagsKeptBut_decchResult s)

/-- R36: the error flags are none of the flags a command may clear. -/
theorem ErrFlag.flag_not_mem (e : ErrFlag) :
    e.flag ∉ [StatusFlag.busy, StatusFlag.done, StatusFlag.empty, StatusFlag.skip] := by
  cases e <;> decide

/-- A refusal clears no error flag. -/
theorem errFlag_refuse {e : ErrFlag} {s : State} (e' : ErrFlag) (h : flag s e.flag = true) :
    flag (refuse e' s) e.flag = true := by
  have hbusy : e.flag ≠ .busy := by cases e <;> decide
  rw [flag_refuse, if_neg hbusy, h, Bool.true_or, ite_self]

/-- R221, R240: a command other than RESET clears no error flag, be it refused or run to its end. -/
theorem exec_keeps_errFlag {i : Instr} {s t : State} {e : ErrFlag} (hi : i ≠ .reset) (hexec : exec i s = .next t)
    (h : flag s e.flag = true) : flag t e.flag = true := by
  rcases (exec_next_iff i s t).1 hexec with ⟨e', _, rfl⟩ | ⟨_, rfl⟩
  · exact errFlag_refuse e' h
  · obtain ⟨hkept, _⟩ := flagsKeptBut_endCommand (flagsKeptBut_resultOf hi s)
    rw [hkept e.flag e.flag_not_mem, h]

/-- R42, R172: the table read back after RESET. -/
theorem drtByte_resetResult (s : State) {i : Nat} (hi : i < 1024) : drtByte (resetResult s) i = tableEntry i := by
  have hread : Memory.read (resetResult s).drt i = some (tableEntry i) := drt_resetWith s.cfg i hi
  rw [drtByte, hread, Option.getD_some]

/-- R42, R221: the reset value of STATUS is 0, and the end of the command adds DONE. -/
theorem status_endCommand_resetResult (s : State) : (endCommand (resetResult s)).status = 0x00000002#32 := by
  have hzero : (resetResult s).status = 0x00000000#32 := rfl
  simp [endCommand, hzero, StatusFlag.bit]

/-- Settles O19: RESET has no check and its result is the table of R42; the other commands keep the error flags. -/
theorem resetCommandRestoresResetValues : Obligations.ResetCommandRestoresResetValues := by
  refine ⟨fun s => ?values, fun i s t e hi hexec h => exec_keeps_errFlag hi hexec h⟩
  case values =>
    have hexec : exec .reset s = .next (endCommand (resetResult s)) := exec_of_passed rfl
    exact ⟨_, hexec, rfl, status_endCommand_resetResult s, rfl, rfl, rfl, rfl, rfl, rfl, rfl, rfl, rfl, rfl, rfl, rfl,
      rfl, rfl, rfl, rfl, rfl, fun _ hi => drtByte_resetResult s hi, rfl, rfl⟩

end Sys2Proof.Machine
end

section
/-! PROOF. NOP (O20): no check refuses it and its result is the state itself, so only the end of the command writes
(R220). -/
namespace Sys2Proof.Machine

theorem keptBut_refl (but : List Part) (s : State) : KeptBut but s s := fun p _ => partKept_refl p s

theorem exec_nop (s : State) : exec .nop s = .next (endCommand s) := exec_of_passed rfl

/-- Settles O20: NOP leaves the state as the end of the command leaves it. -/
theorem nopOnlyEnds : Obligations.NopOnlyEnds := by
  intro s
  have hflags : FlagsKeptBut [] s s := flagsKeptBut_of_status_eq rfl
  exact ⟨endCommand s, exec_nop s, ended_endCommand s, flagsKeptBut_endCommand hflags, rfl,
    keptBut_endCommand (keptBut_refl [] s)⟩

end Sys2Proof.Machine
end

section
/-! PROOF. SPANS (O39): an adjacent pair appends one span when it ascends and stays inside DMX, and nothing otherwise,
so that the span of a kept pair stands behind one span for each pair kept before it (R226). -/
namespace Sys2Proof.Machine

theorem spansRefusal_eq_sole (s : State) : spansRefusal s = soleRefusal .c .dmx s := by
  unfold spansRefusal soleRefusal
  rcases family s with _ | _ | _ | _ <;> simp

/-- The end of a command writes no VALID bit. -/
theorem validKeptBut_endCommand {but : List ValidBit} {s t : State} (h : ValidKeptBut but s t) :
    ValidKeptBut but s (endCommand t) := h

/-! ### The spans of the pairs -/

/-- R226: what pair `i` appends to SPN. -/
def keptSpan (s : State) (i : Nat) : List (Nat × Nat) :=
  if keptPair s i then [(bndElem s i, bndElem s (i + 1) - bndElem s i)] else []

/-- The spans SPANS stores. -/
def keptSpans (s : State) : List (Nat × Nat) := (List.range (s.bndCount - 1)).flatMap (keptSpan s)

variable (s : State)

theorem keptPair_iff (i : Nat) :
    keptPair s i = true ↔ bndElem s i < bndElem s (i + 1) ∧ bndElem s (i + 1) ≤ s.dmxLen := by
  simp [keptPair]

/-- R226: the integer length is positive and the span ends inside DMX exactly when the pair ascends and stays inside. -/
theorem spanAt_eq (i : Nat) :
    spanAt s i = if keptPair s i then some (bndElem s i, bndElem s (i + 1) - bndElem s i) else none := by
  have hkept := keptPair_iff s i
  simp only [spanAt]
  by_cases hasc : bndElem s i < bndElem s (i + 1)
  · rw [if_neg (by omega)]
    by_cases hin : bndElem s (i + 1) ≤ s.dmxLen
    · rw [if_neg (by omega), if_pos (hkept.2 ⟨hasc, hin⟩), show ((bndElem s (i + 1) : Int) - bndElem s i).toNat =
        bndElem s (i + 1) - bndElem s i by omega]
    · rw [if_pos (by omega), if_neg (by tauto)]
  · rw [if_pos (by omega), if_neg (by tauto)]

theorem toList_spanAt (i : Nat) : (spanAt s i).toList = keptSpan s i := by
  rw [spanAt_eq, keptSpan]
  split <;> rfl

theorem spanCandidates_kept : (spanCandidates s).filterMap id = keptSpans s := by
  rw [List.filterMap_eq_flatMap_toList, spanCandidates, List.flatMap_map]
  simp only [id, toList_spanAt, keptSpans]

theorem spanCandidates_dropped :
    (spanCandidates s).any (·.isNone) = true ↔ ∃ i, i < s.bndCount - 1 ∧ keptPair s i = false := by
  simp [spanCandidates, spanAt_eq]

theorem keptSpan_length (n : Nat) : ((List.range n).flatMap (keptSpan s)).length = pairsBefore s n :=
  (length_flatMap_ite (keptPair s) (fun i => [(bndElem s i, bndElem s (i + 1) - bndElem s i)]) _
    fun _ => rfl).trans (Nat.one_mul _)

theorem keptSpans_length : (keptSpans s).length = pairsBefore s (s.bndCount - 1) := keptSpan_length s _

/-- R226: the span of a kept pair stands behind those of the pairs kept before it. -/
theorem keptSpans_get {i : Nat} (hi : i < s.bndCount - 1) (hkept : keptPair s i = true) :
    (keptSpans s)[pairsBefore s i]? = some (bndElem s i, bndElem s (i + 1) - bndElem s i) := by
  have hpiece : keptSpan s i = [(bndElem s i, bndElem s (i + 1) - bndElem s i)] := if_pos hkept
  have hplace := getElem?_flatMap_range (keptSpan s) hi (j := 0) (by rw [hpiece]; exact Nat.one_pos)
  rwa [keptSpan_length, Nat.add_zero, hpiece, List.getElem?_cons_zero] at hplace

/-- R226: a stored span has a positive length and ends inside DMX. -/
theorem keptSpans_inside {p : Nat × Nat} (hp : p ∈ keptSpans s) : 0 < p.2 ∧ p.1 + p.2 ≤ s.dmxLen := by
  obtain ⟨i, _, hmem⟩ := List.mem_flatMap.1 hp
  cases hkept : keptPair s i with
  | false => simp [keptSpan, hkept] at hmem
  | true =>
    obtain ⟨hasc, hin⟩ := (keptPair_iff s i).1 hkept
    obtain rfl : p = (bndElem s i, bndElem s (i + 1) - bndElem s i) := by simpa [keptSpan, hkept] using hmem
    constructor
    · exact Nat.sub_pos_of_lt hasc
    · rwa [Nat.add_sub_of_le hasc.le]

/-! ### What SPANS leaves -/

theorem spansResult_reads :
    (spansResult s).spnCount = pairsBefore s (s.bndCount - 1) ∧
    (∀ k, Memory.read (spansResult s).spn k = (keptSpans s)[k]?) := by
  simp only [spansResult, spanCandidates_kept, setValid_spnCount, setValid_spn, putFlag_spnCount, putFlag_spn,
    Memory.read_ofList, keptSpans_length, implies_true, and_self]

theorem spnElem_spansResult {k : Nat} {p : Nat × Nat} (h : (keptSpans s)[k]? = some p) :
    spnElem (spansResult s) k = p := by
  obtain ⟨_, hread⟩ := spansResult_reads s
  rw [spnElem, hread, h, Option.getD_some]

theorem dmxLen_spansResult : (spansResult s).dmxLen = s.dmxLen := by simp [spansResult]

theorem spnElem_endCommand (t : State) (k : Nat) : spnElem (endCommand t) k = spnElem t k := rfl

theorem spnElem_spansResult_inside {k : Nat} (hk : k < (spansResult s).spnCount) :
    0 < (spnElem (spansResult s) k).2 ∧
      (spnElem (spansResult s) k).1 + (spnElem (spansResult s) k).2 ≤ s.dmxLen := by
  obtain ⟨hcount, _⟩ := spansResult_reads s
  rw [hcount, ← keptSpans_length] at hk
  rw [spnElem_spansResult s (List.getElem?_eq_getElem hk)]
  exact keptSpans_inside s (List.getElem_mem hk)

theorem flag_skip_spansResult :
    flag (spansResult s) .skip = true ↔ ∃ i, i < s.bndCount - 1 ∧ keptPair s i = false := by
  rw [← spanCandidates_dropped, spansResult, flag_setValid, flag_putFlag, if_pos rfl]

theorem validBit_spn_spansResult : validBit (spansResult s) .spn = true := by
  rw [spansResult, validBit_setValid, decide_eq_true rfl, Bool.or_true]

theorem valid_spansResult : (spansResult s).valid = (setValid .spn (clearValid [.spn] s)).valid := by
  simp [spansResult]

theorem validKeptBut_spansResult : ValidKeptBut [.spn] s (spansResult s) := by
  obtain ⟨hbits, hreserved⟩ : ValidKeptBut [.spn] s (setValid .spn (clearValid [.spn] s)) :=
    validKeptBut_setValid (List.mem_singleton_self _) (validKeptBut_clearValid [.spn] s)
  exact ⟨fun v hv => by rw [← hbits v hv, validBit, valid_spansResult, validBit],
    by rw [valid_spansResult, hreserved]⟩

/-- SPANS writes SPN and no other part. -/
theorem keptBut_spansResult : KeptBut [.spn] s (spansResult s) := by
  intro p hp
  have hsame : PartKept p s s := partKept_refl p s
  unfold spansResult putFlag
  cases p
  case spn => exact absurd (List.mem_singleton_self _) hp
  all_goals split <;> exact hsame

/-- The flags, the VALID bits and the parts at the end of SPANS. -/
theorem endCommand_spansResult_frame :
    let t := endCommand (spansResult s)
    (flag t .skip = true ↔ ∃ i, i < s.bndCount - 1 ∧ keptPair s i = false) ∧
      FlagsKeptBut [.busy, .done, .skip] s t ∧
      validBit t .spn = true ∧ ValidKeptBut [.spn] s t ∧ KeptBut [.spn] s t := by
  have hskip : flag (endCommand (spansResult s)) .skip = flag (spansResult s) .skip := flag_endCommand _ _
  exact ⟨by rw [hskip, flag_skip_spansResult], flagsKeptBut_endCommand (flagsKeptBut_spansResult s),
    (validBit_endCommand _ _).trans (validBit_spn_spansResult s), validKeptBut_endCommand (validKeptBut_spansResult s),
    keptBut_endCommand (keptBut_spansResult s)⟩

/-- Settles O39: the first refusal is the one SPANS's checks raise; in family C with V_DMX they pass, and the command
stores the spans of the kept pairs. -/
theorem spansKeepsThePairsInsideDmx : Obligations.SpansKeepsThePairsInsideDmx := by
  refine ⟨fun s e hrefused => exec_of_refused ?refused, fun s hfam hvalid => ?stored⟩
  case refused =>
    have hrange : ∀ g, ¬ (ChannelBad .spans g s ∨ ArgumentBad .spans g s) := by simp [ChannelBad, ArgumentBad]
    exact (spansRefusal_eq_sole s).trans (soleRefusal_of_firstRefusal (fun _ => rfl) rfl hrange hrefused)
  case stored =>
    have hpassed : spansRefusal s = none := (spansRefusal_eq_sole s).trans (soleRefusal_passed hfam hvalid)
    have hexec : exec .spans s = .next (endCommand (spansResult s)) := exec_of_passed hpassed
    obtain ⟨hcount, _⟩ := spansResult_reads s
    refine ⟨_, hexec, ended_endCommand _, hcount, fun i hi hkept => ?kept, fun n hn => ?inside,
      endCommand_spansResult_frame s⟩
    case kept => rw [spnElem_endCommand, spnElem_spansResult s (keptSpans_get s hi hkept)]
    case inside =>
      rw [endCommand_dmxLen, dmxLen_spansResult, spnElem_endCommand]
      exact spnElem_spansResult_inside s hn

end Sys2Proof.Machine
end

section
/-! PROOF. A refusal is precise (O48): it writes its flag, BUSY, DONE and CMD alone, and no command's result sets an error
flag, so a new error flag is the mark of a refusal (R13, R240). -/
namespace Sys2Proof.Machine

theorem ErrFlag.flag_injective {e e' : ErrFlag} (h : e.flag = e'.flag) : e = e' := by
  revert h
  cases e <;> cases e' <;> decide

theorem ErrFlag.flag_ne_busy (e : ErrFlag) : e.flag ≠ .busy := by cases e <;> decide

theorem ErrFlag.flag_ne_done (e : ErrFlag) : e.flag ≠ .done := by cases e <;> decide

theorem ErrFlag.flag_ne_empty (e : ErrFlag) : e.flag ≠ .empty := by cases e <;> decide

theorem ErrFlag.flag_ne_skip (e : ErrFlag) : e.flag ≠ .skip := by cases e <;> decide

theorem flagsKeptBut_setFlag (f : StatusFlag) (s : State) : FlagsKeptBut [f] s (setFlag f s) :=
  ⟨fun g hg => by rw [flag_setFlag, decide_eq_false (List.ne_of_not_mem_cons hg), Bool.or_false], reserved_setFlag f s⟩

/-- R240: a refusal writes BUSY, DONE and its own flag, and keeps the other flags. -/
theorem flagsKeptBut_refuse (e : ErrFlag) (s : State) : FlagsKeptBut [.busy, .done, e.flag] s (refuse e s) :=
  flagsKeptBut_endCommand (flagsKeptBut_setFlag e.flag s)

/-- R240: a refusal writes in no part, so what was kept before it is kept after it. -/
theorem keptBut_refuse {but : List Part} {s t : State} (e : ErrFlag) (h : KeptBut but s t) :
    KeptBut but s (refuse e t) := by
  have hset : KeptBut but s (setFlag e.flag t) := by
    intro p hp
    have hkept : PartKept p s t := h p hp
    cases p <;> exact hkept
  exact keptBut_endCommand hset

/-- Among the error flags a refusal sets its own and no other. -/
theorem errFlag_refuse_eq (e e' : ErrFlag) (s : State) :
    flag (refuse e' s) e.flag = (flag s e.flag || decide (e = e')) := by
  have hflag : (e.flag = e'.flag) = (e = e') := propext ⟨ErrFlag.flag_injective, congrArg ErrFlag.flag⟩
  simp [flag_refuse, e.flag_ne_busy, e.flag_ne_done, hflag]

theorem flag_refuse_self (e : ErrFlag) (s : State) : flag (refuse e s) e.flag = true := by
  rw [errFlag_refuse_eq, decide_eq_true rfl, Bool.or_true]

/-- A command whose checks pass raises no error flag: RESET clears them all, and the others write none. -/
theorem errFlag_of_resultOf {i : Instr} {s : State} {e : ErrFlag}
    (h : flag (endCommand (resultOf i s)) e.flag = true) : flag s e.flag = true := by
  by_cases hi : i = .reset
  · subst hi
    have hcleared : flag (endCommand (resultOf .reset s)) e.flag = false := by
      rw [flag, resultOf, status_endCommand_resetResult]
      cases e <;> decide
    exact absurd (hcleared.symm.trans h) Bool.false_ne_true
  · obtain ⟨hkept, _⟩ := flagsKeptBut_endCommand (flagsKeptBut_resultOf hi s)
    rwa [hkept e.flag e.flag_not_mem] at h

/-- Settles O48: the frame of `refuse` for every state; and of the two ends of a command only a refusal sets an error
flag, its own. -/
theorem refusalIsPrecise : Obligations.RefusalIsPrecise := by
  refine ⟨fun e s => ?frame, fun i s t e hexec hclear hset => ?precise⟩
  case frame =>
    exact ⟨ended_endCommand _, flag_refuse_self e s, flagsKeptBut_refuse e s, refuse_valid s e,
      keptBut_refuse e (keptBut_refl [] s)⟩
  case precise =>
    rcases (exec_next_iff i s t).1 hexec with ⟨e', _, rfl⟩ | ⟨_, rfl⟩
    · rw [errFlag_refuse_eq, hclear, Bool.false_or] at hset
      rw [of_decide_eq_true hset]
    · exact absurd (hclear.symm.trans (errFlag_of_resultOf hset)) Bool.false_ne_true

end Sys2Proof.Machine
end

section
/-! PROOF. The order of refusals (O49): the checks of every command that uses the configuration are the ordered checks of
R246 with the command's own ranges, so that they name a flag exactly when it is the first that applies. -/
namespace Sys2Proof.Machine

/-! ### Reserved codes -/

theorem mem_of_lookupCode {c : Byte} {i : Instr} {m : List (Byte × Instr)} (h : lookupCode c m = some i) :
    (c, i) ∈ m := by
  induction m with
  | nil => cases h
  | cons entry rest ih =>
    obtain ⟨code, j⟩ := entry
    unfold lookupCode at h
    split at h
    next hc => cases h; exact hc ▸ List.mem_cons_self
    next => exact List.mem_cons_of_mem _ (ih h)

/-- R94: a code in no entry of the map is rejected. -/
theorem decodeCommand_of_not_mem {c : Byte} (h : ∀ i, (c, i) ∉ commandMap) :
    decodeCommand c = .error (.reserved c) := by
  cases hl : lookupCode c commandMap with
  | none => rw [decodeCommand, hl]
  | some i => exact absurd (mem_of_lookupCode hl) (h i)

/-- R94, R242: a held code in no entry of the map is refused with ERR_CMD. -/
theorem runHeld_of_not_mem {c : Byte} (h : ∀ i, (c, i) ∉ commandMap) (s : State) :
    runHeld c s = .next (refuse .errCmd s) := by
  rw [runHeld, decodeCommand_of_not_mem h]

/-! ### The ordered checks as the first refusal -/

section
variable {i : Instr} {bad : Family → Bool} {s : State} {f : Family}

/-- A required VALID bit is 0 exactly when not all of them are 1. -/
theorem requiredMissing_iff :
    requiredMissing i f s = true ↔ ∃ v, requiredValid i f = some v ∧ validBit s v = false := by
  cases hreq : requiredValid i f <;> simp [requiredMissing, hreq]

/-- R246: what the ordered checks name is the first flag that applies, if their ranges are bad only where the command's
channel or argument is. -/
theorem firstRefusal_of_orderedRefusal {e : ErrFlag} (hused : anyFamily i = false)
    (hrange : ∀ f, legalIn i f = true → bad f = true → ChannelBad i f s ∨ ArgumentBad i f s)
    (h : orderedRefusal i bad s = some e) : FirstRefusal i s e := by
  cases hfam : family s with
  | none =>
    obtain rfl : ErrFlag.errArg = e := by simpa [orderedRefusal, hfam] using h
    exact .reservedFamily hused hfam
  | some f =>
    cases hlegal : legalIn i f with
    | false =>
      obtain rfl : ErrFlag.errSeq = e := by simpa [orderedRefusal_illegal hfam hlegal] using h
      exact .wrongFamily f hused hfam hlegal
    | true =>
      rw [orderedRefusal_legal hfam hlegal] at h
      by_cases hmissing : requiredMissing i f s = true
      · rw [if_pos hmissing] at h
        cases h
        obtain ⟨v, hreq, hinvalid⟩ := requiredMissing_iff.1 hmissing
        exact .notValid f v hfam hlegal hreq hinvalid
      · rw [if_neg hmissing] at h
        have hvalid : ∀ v, requiredValid i f = some v → validBit s v = true := fun v hreq =>
          eq_true_of_ne_false fun hinvalid => hmissing (requiredMissing_iff.2 ⟨v, hreq, hinvalid⟩)
        by_cases hbad : bad f = true
        · rw [if_pos hbad] at h
          cases h
          exact .outOfRange f hfam hlegal hvalid (hrange f hlegal hbad)
        · rw [if_neg hbad] at h
          cases h

/-- The checks of a command legal in one family are ordered checks without a range. -/
theorem soleRefusal_eq_ordered {v : ValidBit} (hlegal : ∀ g, legalIn i g = decide (g = f))
    (hreq : requiredValid i f = some v) : soleRefusal f v s = orderedRefusal i (fun _ => false) s := by
  cases hfam : family s with
  | none => rw [soleRefusal, orderedRefusal, hfam]
  | some g =>
    by_cases hg : g = f
    · subst hg
      rw [orderedRefusal_requiring hfam ((hlegal g).trans (decide_eq_true rfl)) hreq, soleRefusal, hfam]
      simp
    · rw [orderedRefusal_illegal hfam ((hlegal g).trans (decide_eq_false hg)), soleRefusal_seq hfam fun ⟨h, _⟩ => hg h]

end

/-! ### The checks of every command -/

theorem ldecRefusal_eq_ordered (s : State) : ldecRefusal s = orderedRefusal .ldec (fun _ => false) s := by
  rw [ldecRefusal]
  cases hfam : family s with
  | none => rw [orderedRefusal, hfam]
  | some f =>
    cases f with
    | d => rw [orderedRefusal_illegal hfam rfl]
    | m => rw [orderedRefusal_legal hfam rfl]; rfl
    | c => rw [orderedRefusal_illegal hfam rfl]

theorem syncRefusal_eq_ordered (s : State) : syncRefusal s = orderedRefusal .sync (fun _ => false) s := by
  rw [syncRefusal]
  cases hfam : family s with
  | none => rw [orderedRefusal, hfam]
  | some f =>
    cases f with
    | d => rw [orderedRefusal_legal hfam rfl]; rfl
    | m => rw [orderedRefusal_requiring hfam rfl rfl]; rfl
    | c => rw [orderedRefusal_legal hfam rfl]; rfl

/-- R228: some line of the inventory leaves the unpack source. -/
def lineLeaves (s : State) (f : Family) : Bool :=
  (List.range s.lineCount).any fun r => decide (unpackLen s f < lineElem s r + lineBytes s f)

theorem decchRefusal_eq_ordered (s : State) :
    decchRefusal s = orderedRefusal .decch (fun f => channelIllegal s f || lineLeaves s f) s := by
  rw [decchRefusal]
  cases hfam : family s with
  | none => rw [orderedRefusal, hfam]
  | some f =>
    cases f with
    | d => rw [orderedRefusal_legal hfam rfl]; simp [requiredMissing, requiredValid, ite_or, lineLeaves]
    | m => rw [orderedRefusal_legal hfam rfl]; simp [requiredMissing, requiredValid, ite_or, lineLeaves]
    | c => rw [orderedRefusal_legal hfam rfl]; simp [requiredMissing, requiredValid, ite_or, lineLeaves]

/-- D40, R228: the length of the unpack source, by family. -/
theorem unpackLen_eq (s : State) (f : Family) : unpackLen s f = if f = .d then s.capLen else s.dmxLen := by
  cases f <;> rfl

/-- R210, R228: the bytes of one scan line, words in family D and packed samples in the others. -/
theorem lineBytes_eq (s : State) (f : Family) :
    lineBytes s f = if f = .d then 2 * (s.cfg.d.nch * s.cfg.d.width)
      else (10 * ((s.cfg.family f).nch * (s.cfg.family f).width) + 7) / 8 := by
  cases f <;> rfl

theorem lineLeaves_iff (s : State) (f : Family) : lineLeaves s f = true ↔ ArgumentBad .decch f s := by
  simp [lineLeaves, ArgumentBad, unpackLen_eq, lineBytes_eq]

/-- The ranges a command checks last (R243, R246): none for a command that takes no argument. -/
def outOfRange (i : Instr) (s : State) (f : Family) : Bool :=
  match i with
  | .unpk10 => spanLeaves s f
  | .unpk16 => spanLeaves s f
  | .chsel => chselOutOfRange s f
  | .decch => channelIllegal s f || lineLeaves s f
  | _ => false

/-- R209, R210, R228, R243: the ranges a command checks are those of its channel and its arguments. -/
theorem outOfRange_iff {i : Instr} (s : State) {f : Family} (hlegal : legalIn i f = true) :
    outOfRange i s f = true ↔ ChannelBad i f s ∨ ArgumentBad i f s := by
  cases i with
  | unpk10 => simp [outOfRange, ChannelBad, ArgumentBad, spanLeaves_packed_iff (of_decide_eq_true hlegal)]
  | unpk16 =>
    obtain rfl : f = .d := of_decide_eq_true hlegal
    simp [outOfRange, ChannelBad, ArgumentBad, spanLeaves_words_iff]
  | chsel => exact chselOutOfRange_iff
  | decch => simp [outOfRange, ChannelBad, channelIllegal_iff, lineLeaves_iff]
  | _ => simp [outOfRange, ChannelBad, ArgumentBad]

/-- R246: every command that uses the configuration makes the ordered checks with its own ranges. -/
theorem refusalOf_eq_ordered {i : Instr} (hused : anyFamily i = false) (s : State) :
    refusalOf i s = orderedRefusal i (outOfRange i s) s := by
  cases i with
  | nop => cases hused
  | reset => cases hused
  | drgen => cases hused
  | ldec => exact ldecRefusal_eq_ordered s
  | sync => exact syncRefusal_eq_ordered s
  | demuxd => exact (demuxdRefusal_eq_sole s).trans (soleRefusal_eq_ordered (fun _ => rfl) rfl)
  | demuxm => exact (demuxmRefusal_eq_sole s).trans (soleRefusal_eq_ordered (fun _ => rfl) rfl)
  | spans => exact (spansRefusal_eq_sole s).trans (soleRefusal_eq_ordered (fun _ => rfl) rfl)
  | unpk10 => exact unpk10Refusal_eq_ordered s
  | unpk16 => exact unpk16Refusal_eq_ordered s
  | chsel => exact chselRefusal_eq_ordered s
  | decch => exact decchRefusal_eq_ordered s

/-- R243, R246: no flag applies to a command that uses no configuration. -/
theorem not_firstRefusal_of_anyFamily {i : Instr} {s : State} {e : ErrFlag} (hfree : anyFamily i = true) :
    ¬ FirstRefusal i s e := by
  cases i with
  | nop | reset | drgen =>
    rintro (⟨hused, _⟩ | ⟨f, hused, _⟩ | ⟨f, v, _, _, hreq, _⟩ | ⟨f, _, _, _, hbad⟩)
    · cases hused
    · cases hused
    · cases hreq
    · simp [ChannelBad, ArgumentBad] at hbad
  | _ => cases hfree

theorem refusalOf_of_anyFamily {i : Instr} (hfree : anyFamily i = true) (s : State) : refusalOf i s = none := by
  cases i with
  | nop | reset | drgen => rfl
  | _ => cases hfree

/-- R246: the checks of a command name a flag exactly when it is the first that applies. -/
theorem refusalOf_eq_some_iff (i : Instr) (s : State) (e : ErrFlag) :
    refusalOf i s = some e ↔ FirstRefusal i s e := by
  cases hused : anyFamily i with
  | true => simp [refusalOf_of_anyFamily hused, not_firstRefusal_of_anyFamily hused]
  | false =>
    rw [refusalOf_eq_ordered hused]
    exact ⟨firstRefusal_of_orderedRefusal hused fun _ hlegal => (outOfRange_iff s hlegal).1,
      orderedRefusal_of_firstRefusal fun _ hlegal => (outOfRange_iff s hlegal).2⟩

/-- Settles O49: a reserved code does not decode; the checks of a command name the first flag that applies, or none, and
then the command ends with a result that raises no error flag. -/
theorem firstApplicableRefusalIsTaken : Obligations.FirstApplicableRefusalIsTaken := by
  refine ⟨fun c s hreserved => runHeld_of_not_mem hreserved s,
    fun i s e hfirst => exec_of_refused ((refusalOf_eq_some_iff i s e).2 hfirst), fun i s hnone => ?runs⟩
  case runs =>
    have hpassed : refusalOf i s = none :=
      Option.eq_none_iff_forall_ne_some.2 fun e he => hnone e ((refusalOf_eq_some_iff i s e).1 he)
    exact ⟨_, exec_of_passed hpassed, ended_endCommand _, fun _ => errFlag_of_resultOf⟩

end Sys2Proof.Machine
end

section
/-! PROOF. Error flags steer no command (O51): no check reads STATUS, and setting an error flag commutes with every update
of STATUS a command makes, since these write EMPTY, SKIP, BUSY and DONE alone (R245). -/
namespace Sys2Proof.Machine

/-! ### Setting a flag beside the other updates of STATUS -/

theorem setFlag_setFlag_comm (f g : StatusFlag) (s : State) : setFlag f (setFlag g s) = setFlag g (setFlag f s) := by
  simp only [setFlag, BitVec.or_assoc, BitVec.or_comm (1#32 <<< f.bit)]

/-- Clearing one flag keeps another that was set. -/
theorem clearFlag_setFlag_comm {f g : StatusFlag} (h : g ≠ f) (s : State) :
    clearFlag g (setFlag f s) = setFlag f (clearFlag g s) := by
  have hother : 1#32 <<< f.bit &&& ~~~(1#32 <<< g.bit) = 1#32 <<< f.bit := by
    revert h
    cases f <;> cases g <;> decide
  simp only [setFlag, clearFlag, BitVec.and_or_distrib_right, hother]

theorem putFlag_setFlag_comm {f g : StatusFlag} (h : g ≠ f) (b : Bool) (s : State) :
    putFlag g b (setFlag f s) = setFlag f (putFlag g b s) := by
  cases b with
  | false => exact clearFlag_setFlag_comm h s
  | true => exact setFlag_setFlag_comm g f s

/-- The last updates of a command that stores a product: a flag put by the product, and its VALID bit set. -/
theorem setFlag_setValid_putFlag {f g : StatusFlag} (h : g ≠ f) (v : ValidBit) (b : Bool) (s : State) :
    setFlag f (setValid v (putFlag g b s)) = setValid v (putFlag g b (setFlag f s)) :=
  congrArg (setValid v) (putFlag_setFlag_comm h b s).symm

variable (e : ErrFlag) (s : State)

/-- R91: the end of a command writes BUSY and DONE, which are no error flags. -/
theorem endCommand_setFlag : endCommand (setFlag e.flag s) = setFlag e.flag (endCommand s) :=
  calc endCommand (setFlag e.flag s)
      = setFlag .done (clearFlag .busy (setFlag e.flag { s with cmd := none })) := rfl
    _ = setFlag .done (setFlag e.flag (clearFlag .busy { s with cmd := none })) := by
        rw [clearFlag_setFlag_comm e.flag_ne_busy.symm]
    _ = setFlag e.flag (endCommand s) := setFlag_setFlag_comm _ _ _

/-- R245: a refusal sets its flag beside those already set. -/
theorem refuse_setFlag (e' : ErrFlag) : refuse e' (setFlag e.flag s) = setFlag e.flag (refuse e' s) := by
  rw [refuse, setFlag_setFlag_comm, endCommand_setFlag, refuse]

/-! ### The checks and the results -/

/-- R245: no check of a command reads STATUS. -/
theorem refusalOf_setFlag (i : Instr) : refusalOf i (setFlag e.flag s) = refusalOf i s := by cases i <;> rfl

theorem drgenResult_setFlag : drgenResult (setFlag e.flag s) = setFlag e.flag (drgenResult s) := by
  simp only [drgenResult, setFlag]

theorem putDemux_setFlag (bytes : List Byte) (boundaries : List Nat) :
    putDemux bytes boundaries (setFlag e.flag s) = setFlag e.flag (putDemux bytes boundaries s) := by
  simp only [putDemux]
  rw [setFlag_setValid_putFlag e.flag_ne_empty.symm]
  rfl

theorem syncResultIn_setFlag (f : Family) :
    syncResultIn f (setFlag e.flag s) = setFlag e.flag (syncResultIn f s) := by
  simp only [syncResultIn]
  rw [setFlag_setValid_putFlag e.flag_ne_empty.symm]
  rfl

theorem spansResult_setFlag : spansResult (setFlag e.flag s) = setFlag e.flag (spansResult s) := by
  simp only [spansResult]
  rw [setFlag_setValid_putFlag e.flag_ne_skip.symm]
  rfl

theorem decchResultIn_setFlag (f : Family) :
    decchResultIn f (setFlag e.flag s) = setFlag e.flag (decchResultIn f s) := by
  simp only [decchResultIn]
  rw [setFlag_setValid_putFlag e.flag_ne_empty.symm]
  rfl

theorem family_setFlag (f : StatusFlag) (s : State) : family (setFlag f s) = family s := rfl

theorem syncResult_setFlag : syncResult (setFlag e.flag s) = setFlag e.flag (syncResult s) := by
  unfold syncResult
  rw [family_setFlag]
  cases family s with
  | none => rfl
  | some f => exact syncResultIn_setFlag e s f

theorem unpk10Result_setFlag : unpk10Result (setFlag e.flag s) = setFlag e.flag (unpk10Result s) := by
  unfold unpk10Result
  rw [family_setFlag]
  cases family s <;> rfl

theorem chselResult_setFlag : chselResult (setFlag e.flag s) = setFlag e.flag (chselResult s) := by
  unfold chselResult
  rw [family_setFlag]
  cases family s <;> rfl

theorem decchResult_setFlag : decchResult (setFlag e.flag s) = setFlag e.flag (decchResult s) := by
  unfold decchResult
  rw [family_setFlag]
  cases family s with
  | none => rfl
  | some f => exact decchResultIn_setFlag e s f

/-- R245: an error flag set beforehand stands in the result of a command and changes nothing else of it. -/
theorem resultOf_setFlag {i : Instr} (hi : i ≠ .reset) :
    resultOf i (setFlag e.flag s) = setFlag e.flag (resultOf i s) := by
  cases i with
  | reset => exact absurd rfl hi
  | sync => exact syncResult_setFlag e s
  | demuxd => exact putDemux_setFlag e s _ _
  | demuxm => exact putDemux_setFlag e s _ _
  | spans => exact spansResult_setFlag e s
  | unpk10 => exact unpk10Result_setFlag e s
  | chsel => exact chselResult_setFlag e s
  | decch => exact decchResult_setFlag e s
  | drgen => exact drgenResult_setFlag e s
  | nop | ldec | unpk16 => rfl

/-- R245: a command runs, or is refused, as it would without the error flag. -/
theorem exec_setFlag {i : Instr} {s t : State} (hi : i ≠ .reset) (hexec : exec i s = .next t) :
    exec i (setFlag e.flag s) = .next (setFlag e.flag t) := by
  rcases (exec_next_iff i s t).1 hexec with ⟨e', hrefused, rfl⟩ | ⟨hpassed, rfl⟩
  · rw [← refuse_setFlag]
    exact exec_of_refused ((refusalOf_setFlag e s i).trans hrefused)
  · rw [← endCommand_setFlag, ← resultOf_setFlag e s hi]
    exact exec_of_passed ((refusalOf_setFlag e s i).trans hpassed)

/-- Every command answers a next state: a refusal or the end of its result. -/
theorem exists_exec_next (i : Instr) (s : State) : ∃ t, exec i s = .next t := by
  cases hrefused : refusalOf i s with
  | none => exact ⟨_, exec_of_passed hrefused⟩
  | some e => exact ⟨_, exec_of_refused hrefused⟩

/-- Settles O51: a refusal sets its flag and clears none; and setting an error flag commutes with both ends of a
command. -/
theorem errorFlagsSteerNoCommand : Obligations.ErrorFlagsSteerNoCommand := by
  refine ⟨fun s e e' => ⟨?first, ?second⟩, fun i s e hi => ?steer⟩
  case first => exact errFlag_refuse e' (flag_refuse_self e s)
  case second => exact flag_refuse_self e' (refuse e s)
  case steer =>
    obtain ⟨t, hexec⟩ := exists_exec_next i s
    exact ⟨t, hexec, exec_setFlag e hi hexec⟩

end Sys2Proof.Machine
end

section
/-! PROOF. A reserved code written to CMD while idle (O9): the write holds the code and marks the block busy, the next
step refuses the held code, and the two together write CMD, BUSY, DONE and ERR_CMD alone (R35, R91, R94, R242). -/
namespace Sys2Proof.Machine

/-! ### The two steps -/

/-- R72: with a code held, and no access pending that may be made while busy, the move is the block's. -/
theorem step_of_held {s : State} {c : Byte} (hwf : s.cfg.wf = true) (hcmd : s.cmd = some c)
    (hwrite : ∀ v rest, s.host ≠ .writeReg 0x00 v :: rest) (hread : ∀ rest, s.host ≠ .readReg 0x01 :: rest) :
    step s = runHeld c s := by
  have hwaits : nextAccess s = none := by
    rw [nextAccess_eq_none_iff]
    cases hhost : s.host with
    | nil => exact .inl rfl
    | cons a rest =>
      refine .inr ⟨a, rest, rfl, by rw [hcmd]; rfl, ?_⟩
      cases a with
      | writeReg n v => exact decide_eq_false fun hn => hwrite v rest (hn ▸ hhost)
      | readReg n => exact decide_eq_false fun hn => hread rest (hn ▸ hhost)
      | _ => rfl
  rw [step_of_wf hwf, move, hwaits, hcmd]

/-- R35, R91: the host's CMD write while idle starts the command. -/
theorem step_of_cmdWrite {s : State} {v : Dword} {rest : List HostAccess} (hwf : s.cfg.wf = true)
    (hcmd : s.cmd = none) (hidle : flag s .busy = false) (hhost : s.host = .writeReg 0x00 v :: rest)
    (hv : v.toNat < 256) : step s = .next (startCommand (v.setWidth 8) { s with host := rest }) := by
  have hnext : nextAccess s = some (.writeReg 0x00 v, rest) := (nextAccess_eq_some_iff s _ _).2 ⟨hhost, .inl hcmd⟩
  have hwritten : hostAccess (.writeReg 0x00 v) rest s = writeCmd v { s with host := rest } := by
    rw [hostAccess, hidle]
    rfl
  rw [step_of_wf hwf, move, hnext]
  exact hwritten.trans (if_pos hv)

/-- R94, R242: a held reserved code is refused. -/
theorem step_of_held_reserved {s : State} {c : Byte} (hwf : s.cfg.wf = true) (hcmd : s.cmd = some c)
    (hwrite : ∀ v rest, s.host ≠ .writeReg 0x00 v :: rest) (hread : ∀ rest, s.host ≠ .readReg 0x01 :: rest)
    (hreserved : ∀ i, (c, i) ∉ commandMap) : step s = .next (refuse .errCmd s) :=
  (step_of_held hwf hcmd hwrite hread).trans (runHeld_of_not_mem hreserved s)

/-! ### What the start of a command leaves -/

/-- R91: the start of a command writes BUSY and DONE and keeps the other flags. -/
theorem flagsKeptBut_startCommand (c : Byte) (s : State) : FlagsKeptBut [.busy, .done] s (startCommand c s) := by
  refine ⟨fun f hf => ?_, reserved_startCommand c s⟩
  simp only [List.mem_cons, List.not_mem_nil, or_false, not_or] at hf
  obtain ⟨hbusy, hdone⟩ := hf
  rw [flag_startCommand, if_neg hbusy, if_neg hdone]

theorem flagsKeptBut_trans {but : List StatusFlag} {s t u : State} (hst : FlagsKeptBut but s t)
    (htu : FlagsKeptBut but t u) : FlagsKeptBut but s u := by
  obtain ⟨hflags, hreserved⟩ := hst
  obtain ⟨hflags', hreserved'⟩ := htu
  exact ⟨fun f hf => (hflags' f hf).trans (hflags f hf), hreserved'.trans hreserved⟩

/-- R91: taking an access off the host's list and starting a command write in no part but the host's list. -/
theorem keptBut_startCommand (c : Byte) (rest : List HostAccess) (s : State) :
    KeptBut [.model] s (startCommand c { s with host := rest }) := by
  intro p hp
  have hsame : PartKept p s s := partKept_refl p s
  cases p
  case model => exact absurd (List.mem_singleton_self _) hp
  all_goals exact hsame

/-- Settles O9: a held reserved code is refused in one step; the CMD write before it, a step of its own, holds the code
and touches BUSY and DONE alone. -/
theorem reservedCodeIsRefused : Obligations.ReservedCodeIsRefused := by
  refine ⟨fun s c hwf hcmd hwrite hread hreserved => ?held,
    fun s v rest hwf hcmd hidle hhost hwrite hread hv hreserved => ?written⟩
  case held =>
    exact ⟨_, step_of_held_reserved hwf hcmd hwrite hread hreserved, ended_endCommand _, flag_refuse_self _ s,
      flagsKeptBut_refuse .errCmd s, rfl, keptBut_refuse .errCmd (keptBut_refl [] s)⟩
  case written =>
    have hstart : FlagsKeptBut [.busy, .done, .errCmd] s (startCommand (v.setWidth 8) { s with host := rest }) :=
      flagsKeptBut_mono (by simp) (flagsKeptBut_startCommand _ { s with host := rest })
    exact ⟨_, _, step_of_cmdWrite hwf hcmd hidle hhost hv, step_of_held_reserved hwf rfl hwrite hread hreserved,
      ended_endCommand _, flag_refuse_self _ _, flagsKeptBut_trans hstart (flagsKeptBut_refuse .errCmd _), rfl, rfl, rfl,
      rfl, keptBut_refuse .errCmd (keptBut_startCommand _ rest s)⟩

end Sys2Proof.Machine
end

section
/-! PROOF. Every command is repeatable (O57): what a command leaves is its product, stored, under a write of CMD, STATUS
and VALID that keeps some bits and puts the others. Its operands and the VALID bit it requires are not among what it
writes, so run again it stores the product that stands, and the same write of the registers changes nothing (R266). -/
namespace Sys2Proof.Machine

/-! ### Writes of STATUS and VALID that keep some bits and put the others -/

/-- CMD, STATUS and VALID replaced, everything else kept. -/
def State.withRegisters (s : State) (c : Option Byte) (status valid : Word) : State :=
  { s with cmd := c, status := status, valid := valid }

/-- An update that writes STATUS and VALID alone: in each it keeps some bits and puts the others, whatever they were. -/
def MasksRegisters (U : State → State) : Prop :=
  ∃ keep put keepValid putValid : Word, ∀ s,
    U s = s.withRegisters s.cmd (s.status &&& keep ||| put) (s.valid &&& keepValid ||| putValid)

section
variable {U : State → State}

theorem masksRegisters_id : MasksRegisters fun s => s :=
  ⟨BitVec.allOnes 32, 0#32, BitVec.allOnes 32, 0#32, fun s => by
    rw [BitVec.and_allOnes, BitVec.or_zero, BitVec.and_allOnes, BitVec.or_zero, State.withRegisters]⟩

theorem masksRegisters_setFlag (hU : MasksRegisters U) (f : StatusFlag) : MasksRegisters fun s => setFlag f (U s) := by
  obtain ⟨keep, put, keepValid, putValid, h⟩ := hU
  exact ⟨keep, put ||| 1#32 <<< f.bit, keepValid, putValid,
    fun s => by simp only [h, setFlag, State.withRegisters, BitVec.or_assoc]⟩

theorem masksRegisters_clearFlag (hU : MasksRegisters U) (f : StatusFlag) :
    MasksRegisters fun s => clearFlag f (U s) := by
  obtain ⟨keep, put, keepValid, putValid, h⟩ := hU
  exact ⟨keep &&& ~~~(1#32 <<< f.bit), put &&& ~~~(1#32 <<< f.bit), keepValid, putValid,
    fun s => by simp only [h, clearFlag, State.withRegisters, BitVec.and_or_distrib_right, BitVec.and_assoc]⟩

theorem masksRegisters_putFlag (hU : MasksRegisters U) (f : StatusFlag) (b : Bool) :
    MasksRegisters fun s => putFlag f b (U s) := by
  cases b with
  | false => exact masksRegisters_clearFlag hU f
  | true => exact masksRegisters_setFlag hU f

theorem masksRegisters_setValid (hU : MasksRegisters U) (v : ValidBit) :
    MasksRegisters fun s => setValid v (U s) := by
  obtain ⟨keep, put, keepValid, putValid, h⟩ := hU
  exact ⟨keep, put, keepValid, putValid ||| 1#32 <<< v.bit,
    fun s => by simp only [h, setValid, State.withRegisters, BitVec.or_assoc]⟩

theorem masksRegisters_clearValid (vs : List ValidBit) : MasksRegisters (clearValid vs) :=
  ⟨BitVec.allOnes 32, 0#32, ~~~(validWord vs), 0#32, fun s => by
    rw [BitVec.and_allOnes, BitVec.or_zero, BitVec.or_zero, clearValid, State.withRegisters]⟩

/-- The last updates of a command that puts a flag by its product and sets the product's VALID bit. -/
theorem masksRegisters_store (vs : List ValidBit) (f : StatusFlag) (b : Bool) (v : ValidBit) :
    MasksRegisters fun s => setValid v (putFlag f b (clearValid vs s)) :=
  masksRegisters_setValid (masksRegisters_putFlag (masksRegisters_clearValid vs) f b) v

/-- Masking a word a second time changes nothing. -/
theorem mask_mask (x keep put : Word) : (x &&& keep ||| put) &&& keep ||| put = x &&& keep ||| put := by
  apply BitVec.eq_of_getLsbD_eq
  intro i _
  simp only [BitVec.getLsbD_or, BitVec.getLsbD_and]
  cases x.getLsbD i <;> cases keep.getLsbD i <;> simp

/-- The end of a command after such an update is a write of CMD, STATUS and VALID. -/
theorem endCommand_masks (hU : MasksRegisters U) :
    ∃ keep put keepValid putValid : Word, ∀ s,
      endCommand (U s) = s.withRegisters none (s.status &&& keep ||| put) (s.valid &&& keepValid ||| putValid) := by
  obtain ⟨keep, put, keepValid, putValid, h⟩ := masksRegisters_setFlag (masksRegisters_clearFlag hU .busy) .done
  refine ⟨keep, put, keepValid, putValid, fun s => ?_⟩
  calc endCommand (U s)
      = { setFlag .done (clearFlag .busy (U s)) with cmd := none } := rfl
    _ = { s.withRegisters s.cmd (s.status &&& keep ||| put) (s.valid &&& keepValid ||| putValid) with cmd := none } :=
        congrArg (fun t : State => { t with cmd := none }) (h s)

/-- The same update and the same end a second time change nothing. -/
theorem endCommand_masks_again (hU : MasksRegisters U) (s : State) :
    endCommand (U (endCommand (U s))) = endCommand (U s) := by
  obtain ⟨keep, put, keepValid, putValid, h⟩ := endCommand_masks hU
  simp only [h, State.withRegisters, mask_mask]

end

/-- R240: a refusal repeated changes nothing: its flag stands. -/
theorem refuse_refuse (e : ErrFlag) (s : State) : refuse e (refuse e s) = refuse e s :=
  endCommand_masks_again (masksRegisters_setFlag masksRegisters_id e.flag) s

/-- R246: no check reads what a refusal writes. -/
theorem refusalOf_refuse (i : Instr) (e : ErrFlag) (s : State) : refusalOf i (refuse e s) = refusalOf i s := by
  cases i <;> rfl

/-! ### Checks and results that stand -/

/-- R246: the checks of a command read the family, the VALID bit it requires and its ranges. -/
theorem refusalOf_congr {i : Instr} {s t : State} (hfam : family t = family s)
    (hrequired : ∀ f v, requiredValid i f = some v → validBit t v = validBit s v)
    (hrange : ∀ f, outOfRange i t f = outOfRange i s f) : refusalOf i t = refusalOf i s := by
  cases hused : anyFamily i with
  | true => rw [refusalOf_of_anyFamily hused, refusalOf_of_anyFamily hused]
  | false =>
    have hmissing : ∀ f, requiredMissing i f t = requiredMissing i f s := by
      intro f
      unfold requiredMissing
      cases hreq : requiredValid i f with
      | none => rfl
      | some v => rw [Option.any_some, Option.any_some, hrequired f v hreq]
    simp only [refusalOf_eq_ordered hused, orderedRefusal, hfam, hmissing, hrange]

/-- Command `i` at `s` leaves its product `x`, stored, under the update `U` of STATUS and VALID; on the product,
whatever CMD, STATUS and VALID are, its result is the update alone, and its checks find what they found at `s`. -/
structure Repeatable (i : Instr) (s x : State) (U : State → State) : Prop where
  masks : MasksRegisters U
  result : resultOf i s = U x
  again : ∀ c status valid, resultOf i (x.withRegisters c status valid) = U (x.withRegisters c status valid)
  family : family x = family s := by rfl
  range : ∀ f, outOfRange i x f = outOfRange i s f := by intro _; rfl
  required : ∀ f v, requiredValid i f = some v → validBit (U x) v = validBit s v

/-- No range a command checks reads CMD, STATUS or VALID. -/
theorem outOfRange_withRegisters (i : Instr) (s : State) (c : Option Byte) (status valid : Word) (f : Family) :
    outOfRange i (s.withRegisters c status valid) f = outOfRange i s f := by
  cases i <;> rfl

/-- R266: such a command passes its checks again and leaves the same state again. -/
theorem Repeatable.exec_again {i : Instr} {s x : State} {U : State → State} (h : Repeatable i s x U)
    (hpassed : refusalOf i s = none) :
    exec i (endCommand (resultOf i s)) = .next (endCommand (resultOf i s)) := by
  obtain ⟨keep, put, keepValid, putValid, hend⟩ := endCommand_masks h.masks
  have hchecks : refusalOf i (endCommand (U x)) = refusalOf i s := by
    refine refusalOf_congr ?family h.required fun f => ?range
    case family =>
      rw [hend]
      exact h.family
    case range => rw [hend, outOfRange_withRegisters, h.range]
  have hresult : resultOf i (endCommand (U x)) = U (endCommand (U x)) := by
    rw [hend]
    exact h.again _ _ _
  rw [h.result, exec_of_passed (hchecks.trans hpassed), hresult, endCommand_masks_again h.masks]

/-! ### The commands, one by one -/

/-- A command that stores a product keeps the VALID bits it does not clear. -/
theorem validBit_store {vs : List ValidBit} {v w : ValidBit} (f : StatusFlag) (b : Bool) (s : State) (hv : v ∉ vs)
    (hw : w ∈ vs) : validBit (setValid w (putFlag f b (clearValid vs s))) v = validBit s v := by
  have hother : v ≠ w := fun h => hv (h ▸ hw)
  rw [validBit_setValid, validBit_putFlag, validBit_clearValid, decide_eq_false hv, decide_eq_false hother,
    Bool.not_false, Bool.and_true, Bool.or_false]

theorem syncResult_eq {s : State} {f : Family} (hfam : family s = some f) : syncResult s = syncResultIn f s := by
  rw [syncResult, hfam]

theorem decchResult_eq {s : State} {f : Family} (hfam : family s = some f) : decchResult s = decchResultIn f s := by
  rw [decchResult, hfam]

variable {s : State} {f : Family}

/-- R220: NOP has no product. -/
theorem repeatable_nop (s : State) : Repeatable .nop s s fun t => t where
  masks := masksRegisters_id
  result := rfl
  again _ _ _ := rfl
  required _ _ h := nomatch h

/-- R174: DRGEN reads nothing. -/
theorem repeatable_drgen (s : State) : Repeatable .drgen s (drgenResult s) fun t => t where
  masks := masksRegisters_id
  result := rfl
  again _ _ _ := by simp only [resultOf, drgenResult, State.withRegisters]
  required _ _ h := nomatch h

/-- R133: LDEC reads CAP and writes LDB. -/
theorem repeatable_ldec (s : State) :
    Repeatable .ldec s { s with ldb := Memory.ofList (ldecBytes s), ldbLen := s.capLen / 2 }
      fun t => setValid .ldb (clearValid ValidBit.all t) where
  masks := masksRegisters_setValid (masksRegisters_clearValid _) _
  result := rfl
  again _ _ _ := rfl
  required _ _ h := nomatch h

/-- R152: SYNC reads the bit source, CAP or LDB, and V_LDB. -/
theorem repeatable_sync (hfam : family s = some f) :
    Repeatable .sync s
      { s with
        fs := Memory.ofList (sourcePass s f).found
        fsCount := (sourcePass s f).found.length
        lock := (sourcePass s f).lock
        pos := (sourcePass s f).pos }
      fun t => setValid .fs (putFlag .empty (sourcePass s f).found.isEmpty (clearValid (syncClears f) t)) where
  masks := masksRegisters_store _ _ _ _
  result := syncResult_eq hfam
  again _ _ _ := syncResult_eq hfam
  required g v h := by
    cases g with
    | m =>
      cases h
      cases f <;> exact validBit_store _ _ _ (by decide) (by decide)
    | d | c => cases h

/-- R182: DEMUXD reads LDB, FS and V_FS. -/
theorem repeatable_demuxd (s : State) :
    Repeatable .demuxd s
      { s with
        dmx := Memory.ofList (demuxdBytes s)
        dmxLen := (demuxdBytes s).length
        bnd := Memory.ofList []
        bndCount := 0 }
      fun t => setValid .dmx (putFlag .empty (demuxdBytes s).isEmpty (clearValid demuxClears t)) where
  masks := masksRegisters_store _ _ _ _
  result := rfl
  again _ _ _ := rfl
  required _ _ h := by
    cases h
    exact validBit_store _ _ _ (by decide) (by decide)

/-- R188: DEMUXM reads CAP, DRT, FS and V_FS. -/
theorem repeatable_demuxm (s : State) :
    Repeatable .demuxm s
      { s with
        dmx := Memory.ofList (demuxmOut s).bytes
        dmxLen := (demuxmOut s).bytes.length
        bnd := Memory.ofList (demuxmOut s).boundaries
        bndCount := (demuxmOut s).boundaries.length }
      fun t => setValid .dmx (putFlag .empty (demuxmOut s).bytes.isEmpty (clearValid demuxClears t)) where
  masks := masksRegisters_store _ _ _ _
  result := rfl
  again _ _ _ := rfl
  required _ _ h := by
    cases h
    exact validBit_store _ _ _ (by decide) (by decide)

/-- R226: SPANS reads BND, DMX_LEN and V_DMX. -/
theorem repeatable_spans (s : State) :
    Repeatable .spans s
      { s with
        spn := Memory.ofList ((spanCandidates s).filterMap id)
        spnCount := ((spanCandidates s).filterMap id).length }
      fun t => setValid .spn (putFlag .skip ((spanCandidates s).any (·.isNone)) (clearValid [.spn] t)) where
  masks := masksRegisters_store _ _ _ _
  result := rfl
  again _ _ _ := rfl
  required _ _ h := by
    cases h
    exact validBit_store _ _ _ (by decide) (by decide)

/-- R202: UNPK10 reads DMX, the arguments and V_DMX. -/
theorem repeatable_unpk10 (hfam : family s = some f) :
    Repeatable .unpk10 s
      { s with
        pix := Memory.ofList (unpackRun s f s.argBase s.argCount)
        pixLen := (unpackRun s f s.argBase s.argCount).length }
      fun t => setValid .pix (clearValid [.pix] t) where
  masks := masksRegisters_setValid (masksRegisters_clearValid _) _
  result := unpk10Result_eq hfam
  again _ _ _ := unpk10Result_eq hfam
  required _ v h := by
    cases h
    obtain ⟨hbits, _⟩ := validKeptBut_putPix (unpackRun s f s.argBase s.argCount) s
    exact hbits .dmx (by decide)

/-- R205: UNPK16 reads CAP and the arguments. -/
theorem repeatable_unpk16 (s : State) :
    Repeatable .unpk16 s
      { s with
        pix := Memory.ofList (unpackRun s .d s.argBase s.argCount)
        pixLen := (unpackRun s .d s.argBase s.argCount).length }
      fun t => setValid .pix (clearValid [.pix] t) where
  masks := masksRegisters_setValid (masksRegisters_clearValid _) _
  result := rfl
  again _ _ _ := rfl
  required _ _ h := nomatch h

/-- R228: DECCH reads the unpack source, CAP or DMX, LINE, CONFIG and V_DMX. -/
theorem repeatable_decch (hfam : family s = some f) :
    Repeatable .decch s
      { s with
        chi := Memory.ofList ((List.range s.lineCount).flatMap (decchRow s f))
        chiRows := s.lineCount }
      fun t => setValid .chi (putFlag .empty (decide (s.lineCount = 0)) (clearValid [.chi] t)) where
  masks := masksRegisters_store _ _ _ _
  result := decchResult_eq hfam
  again _ _ _ := decchResult_eq hfam
  required g v h := by
    cases g with
    | d => cases h
    | m | c =>
      cases h
      exact validBit_store _ _ _ (by decide) (by decide)

/-! ### CHSEL -/

/-- Writing a run that stands already changes nothing. -/
theorem Memory.writeList_of_read {α : Type} {m : Memory α} (hwf : Memory.wf m = true) (vs : List α) (a : Nat)
    (hread : ∀ j (h : j < vs.length), Memory.read m (a + j) = some vs[j]) : Memory.writeList m a vs = m := by
  induction vs generalizing a with
  | nil => rfl
  | cons v vs ih =>
    have hfirst : Memory.write m a v = m := Memory.write_of_read m a v hwf (hread 0 (Nat.zero_lt_succ _))
    rw [Memory.writeList, hfirst]
    exact ih (a + 1) fun j h => by
      rw [Nat.add_right_comm, Nat.add_assoc]
      exact hread (j + 1) (Nat.succ_lt_succ h)

/-- A run written a second time changes nothing. -/
theorem Memory.writeList_again {α : Type} {m : Memory α} (hwf : Memory.wf m = true) (vs : List α) (a : Nat) :
    Memory.writeList (Memory.writeList m a vs) a vs = Memory.writeList m a vs :=
  Memory.writeList_of_read (Memory.wf_writeList vs m a hwf) vs a fun j h => Memory.read_writeList_inside vs m a j h

/-- R208, R209: the row of the selected channel written in CHI. -/
def withChselRow (f : Family) (s : State) : State :=
  { s with chi := Memory.writeList s.chi (s.argRow * (s.cfg.family f).width) (chselRow s f) }

/-- R209: with ARG_ROW an existing row, CHSEL writes that row and clears V_CHI; CHI_ROWS stands. -/
theorem chselResult_existing (hfam : family s = some f) (hrow : s.argRow < s.chiRows) :
    chselResult s = clearValid [.chi] (withChselRow f s) := by
  rw [chselResult_eq hfam, chselResultIn, if_neg hrow.ne]
  rfl

/-- R209: the row is read from PIX, so that written again it is the row that stands. -/
theorem withChselRow_again (hwf : Memory.wf s.chi = true) (c : Option Byte) (status valid : Word) :
    withChselRow f ((withChselRow f s).withRegisters c status valid) =
      (withChselRow f s).withRegisters c status valid :=
  congrArg (fun chi => State.withRegisters { s with chi := chi } c status valid)
    (Memory.writeList_again hwf (chselRow s f) (s.argRow * (s.cfg.family f).width))

/-- R209: CHSEL reads PIX, ARG_ROW, CONFIG and V_PIX. -/
theorem repeatable_chsel (hwf : Memory.wf s.chi = true) (hfam : family s = some f) (hrow : s.argRow < s.chiRows) :
    Repeatable .chsel s (withChselRow f s) (clearValid [.chi]) where
  masks := masksRegisters_clearValid _
  result := chselResult_existing hfam hrow
  again c status valid :=
    (chselResult_existing (s := (withChselRow f s).withRegisters c status valid) hfam hrow).trans
      (congrArg (clearValid [.chi]) (withChselRow_again hwf c status valid))
  required _ _ h := by
    cases h
    obtain ⟨hbits, _⟩ := validKeptBut_clearValid [.chi] s
    exact hbits .pix (by decide)

/-! ### Every command -/

/-- R246: a command that uses the configuration passes its checks only where a family is selected. -/
theorem exists_family_of_passed {i : Instr} (hused : anyFamily i = false) (hpassed : refusalOf i s = none) :
    ∃ f, family s = some f := by
  cases hfam : family s with
  | none => simp [refusalOf_eq_ordered hused, orderedRefusal, hfam] at hpassed
  | some f => exact ⟨f, rfl⟩

/-- R266: every command but RESET, passed once, leaves a product and registers on which it changes nothing. -/
theorem exists_repeatable {i : Instr} (hi : i ≠ .reset) (hwf : Memory.wf s.chi = true)
    (hrow : i = .chsel → s.argRow < s.chiRows) (hpassed : refusalOf i s = none) : ∃ x U, Repeatable i s x U := by
  have hfamily : anyFamily i = false → ∃ f, family s = some f := fun hused => exists_family_of_passed hused hpassed
  cases i with
  | nop => exact ⟨_, _, repeatable_nop s⟩
  | reset => exact absurd rfl hi
  | drgen => exact ⟨_, _, repeatable_drgen s⟩
  | ldec => exact ⟨_, _, repeatable_ldec s⟩
  | sync =>
    obtain ⟨f, hfam⟩ := hfamily rfl
    exact ⟨_, _, repeatable_sync hfam⟩
  | demuxd => exact ⟨_, _, repeatable_demuxd s⟩
  | demuxm => exact ⟨_, _, repeatable_demuxm s⟩
  | spans => exact ⟨_, _, repeatable_spans s⟩
  | unpk10 =>
    obtain ⟨f, hfam⟩ := hfamily rfl
    exact ⟨_, _, repeatable_unpk10 hfam⟩
  | unpk16 => exact ⟨_, _, repeatable_unpk16 s⟩
  | chsel =>
    obtain ⟨f, hfam⟩ := hfamily rfl
    exact ⟨_, _, repeatable_chsel hwf hfam (hrow rfl)⟩
  | decch =>
    obtain ⟨f, hfam⟩ := hfamily rfl
    exact ⟨_, _, repeatable_decch hfam⟩

theorem wf_chi_of_memoryWf (h : memoryWf s = true) : Memory.wf s.chi = true := by
  simp only [memoryWf, Bool.and_eq_true] at h
  obtain ⟨⟨_, hchi⟩, _⟩ := h
  exact hchi

/-- Settles O57: a refusal repeated changes nothing; RESET leaves the reset values again and counts one more; every
other command that passes its checks passes them again and stores what stands. -/
theorem commandsAreRepeatable : Obligations.CommandsAreRepeatable := by
  intro i s t hwf hexec hrow
  rcases (exec_next_iff i s t).1 hexec with ⟨e, hrefused, rfl⟩ | ⟨hpassed, rfl⟩
  · exact ⟨_, exec_of_refused ((refusalOf_refuse i e s).trans hrefused), by rw [refuse_refuse]⟩
  · by_cases hi : i = .reset
    · subst hi
      exact ⟨_, exec_of_passed rfl, rfl⟩
    · obtain ⟨x, U, hrepeatable⟩ := exists_repeatable hi (wf_chi_of_memoryWf hwf) hrow hpassed
      exact ⟨_, hrepeatable.exec_again hpassed, rfl⟩

end Sys2Proof.Machine
end

section
/-! PROOF. The command word (O1 to O3): a command's encoding is the one code that the map gives it, and the decoder, which
takes the first entry of a code, reads back every entry, since no code stands twice (R90, R92, R94). -/
namespace Sys2Proof.Machine

/-- No code stands twice in the command map (R92). -/
theorem commandMap_codes_nodup : (commandMap.map Prod.fst).Nodup := by decide

/-- Where no code stands twice, looking a code up finds its entry. -/
theorem lookupCode_of_mem {c : Byte} {i : Instr} {m : List (Byte × Instr)} (hnodup : (m.map Prod.fst).Nodup)
    (h : (c, i) ∈ m) : lookupCode c m = some i := by
  induction m with
  | nil => cases h
  | cons entry rest ih =>
    obtain ⟨code, j⟩ := entry
    obtain ⟨hfirst, hrest⟩ := List.nodup_cons.1 hnodup
    rcases List.mem_cons.1 h with hentry | hmem
    · cases hentry
      exact if_pos rfl
    · have hother : c ≠ code := fun hc => hfirst (hc ▸ List.mem_map.2 ⟨(c, i), hmem, rfl⟩)
      rw [lookupCode, if_neg hother, ih hrest hmem]

/-- R92: a byte decodes to a command exactly when the map has that entry. -/
theorem decodeCommand_eq_ok_iff (c : Byte) (i : Instr) : decodeCommand c = .ok i ↔ (c, i) ∈ commandMap := by
  constructor
  · intro h
    cases hl : lookupCode c commandMap with
    | none => rw [decodeCommand, hl] at h; cases h
    | some j =>
      rw [decodeCommand, hl] at h
      cases h
      exact mem_of_lookupCode hl
  · intro h
    rw [decodeCommand, lookupCode_of_mem commandMap_codes_nodup h]

/-- R94: a byte is rejected exactly when the map has no entry for it. -/
theorem decodeCommand_eq_reserved_iff (c : Byte) :
    decodeCommand c = .error (.reserved c) ↔ ∀ i, (c, i) ∉ commandMap :=
  ⟨fun h i hmem => (nomatch h.symm.trans ((decodeCommand_eq_ok_iff c i).2 hmem)), decodeCommand_of_not_mem⟩

/-- R90, R92: the word of a command is exactly the code of its entry. -/
theorem mem_commandMap_iff (c : Byte) (i : Instr) : (c, i) ∈ commandMap ↔ encode i = [c] := by
  cases i <;> simp [commandMap, encode, eq_comm (a := c)]

/-- R90: the decoder takes exactly one byte, and answers a command when that byte decodes to it. -/
theorem decodeBytes_eq_ok_iff (bytes rest : List Byte) (i : Instr) :
    decodeBytes bytes = .ok (i, rest) ↔ ∃ c, decodeCommand c = .ok i ∧ bytes = c :: rest := by
  cases bytes with
  | nil => simp [decodeBytes]
  | cons c tail => cases h : decodeCommand c <;> simp [decodeBytes, h]

/-- Settles O1: the decoder's one byte decodes to the command exactly when it is the command's code, which is its whole
encoding. -/
theorem decodeOfEncodeIsTheCommand : Obligations.DecodeOfEncodeIsTheCommand := by
  intro i bytes rest _
  simp only [decodeBytes_eq_ok_iff, decodeCommand_eq_ok_iff, mem_commandMap_iff]
  constructor
  · rintro ⟨c, hword, rfl⟩
    rw [hword, List.singleton_append]
  · intro hbytes
    obtain ⟨c, hword⟩ : ∃ c, encode i = [c] := by cases i <;> exact ⟨_, rfl⟩
    exact ⟨c, hword, by rw [hbytes, hword, List.singleton_append]⟩

/-- Settles O2: the decoder answers the entries of the map and rejects the rest; the counts are evaluated. -/
theorem legalCodesAreTheCommandMap : Obligations.LegalCodesAreTheCommandMap :=
  ⟨decodeCommand_eq_ok_iff, fun c => (decodeCommand_eq_reserved_iff c).symm, rfl, by decide +kernel⟩

/-- Settles O3: the decoder is run on each of the words. -/
theorem commandWordsOfTheMap : Obligations.CommandWordsOfTheMap := by
  unfold Obligations.CommandWordsOfTheMap
  decide

end Sys2Proof.Machine
end

section
/-! PROOF. A pass of SYNC (O27 to O30, O33): the loop follows the trace of candidates, whose cursor rises at every one, until
a position is not admitted; what the pass finds are the accepted candidates before it (R143 to R153). -/
namespace Sys2Proof.Machine

/-! ### The lock machine, state by state -/

section
variable {k : FamilyConsts} {L : FrameLock} {d : Nat}

theorem syStep_of_unlocked (h : L.st = .unlocked) : syStep k L d = syUnlocked k (decide (d ≤ k.t0)) := by
  rw [syStep, accepted, h]; rfl

theorem syStep_of_softLock (h : L.st = .softLock) : syStep k L d = sySoftLock k L (decide (d ≤ k.t1)) := by
  rw [syStep, accepted, h]; rfl

theorem syStep_of_resync (h : L.st = .resync) : syStep k L d = syResync k L (decide (d ≤ k.t2)) := by
  rw [syStep, accepted, h]; rfl

theorem syStep_of_hardLock (h : L.st = .hardLock) : syStep k L d = syHardLock (decide (d ≤ k.t3)) := by
  rw [syStep, accepted, h]; rfl

/-- R143: a candidate is accepted when its distance is at most the threshold of the state. -/
theorem accepted_iff : accepted k L d = true ↔ d ≤ threshold k L.st := decide_eq_true_iff

end

/-! ### The counters -/

section
variable {k : FamilyConsts} {L : FrameLock}

/-- R145: in a family that locks an accepted candidate leads to SOFT_LOCK, a rejected one back to UNLOCKED. -/
theorem lockInRange_syUnlocked (hbad : 1 ≤ k.nBad) (hgood : 1 ≤ k.nGood) (accept : Bool) :
    LockInRange k (syUnlocked k accept) := by
  unfold syUnlocked
  split
  · exact ⟨hgood, hbad⟩
  · exact ⟨rfl, rfl, rfl⟩

/-- R146: the counters of SOFT_LOCK leave the state before they pass their bounds. -/
theorem lockInRange_sySoftLock (hgood : 1 ≤ k.nGood) (hslip : 1 ≤ k.nSlip) (hbudget : 1 ≤ k.resyncBudget)
    (hst : L.st = .softLock) (h : LockInRange k L) (accept : Bool) : LockInRange k (sySoftLock k L accept) := by
  obtain ⟨hg, hb⟩ : L.good + 1 ≤ k.nGood ∧ L.bad + 1 ≤ (if L.streak then k.nSlip else k.nBad) := by
    simpa only [LockInRange, hst] using h
  unfold sySoftLock
  split
  · split
    next => exact ⟨rfl, rfl, rfl⟩
    next hlast => exact ⟨by show L.good + 1 + 1 ≤ k.nGood; omega, hslip⟩
  · split
    next => exact ⟨rfl, hbudget, rfl⟩
    next hslipped =>
      split
      next => exact ⟨rfl, rfl, rfl⟩
      next hlost =>
        refine ⟨hgood, ?_⟩
        show L.bad + 1 + 1 ≤ if L.streak then k.nSlip else k.nBad
        cases hs : L.streak <;> simp only [hs, if_true, if_false, Bool.false_eq_true, true_and] at hb hslipped hlost ⊢ <;>
          omega

/-- R147: RESYNC counts its budget down and leaves before it is passed. -/
theorem lockInRange_syResync (hgood : 1 ≤ k.nGood) (hbad : 1 ≤ k.nBad) (hst : L.st = .resync) (h : LockInRange k L)
    (accept : Bool) : LockInRange k (syResync k L accept) := by
  obtain ⟨_, hb, _⟩ : L.good = 0 ∧ L.bad + 1 ≤ k.resyncBudget ∧ L.streak = false := by
    simpa only [LockInRange, hst] using h
  unfold syResync
  split
  · exact ⟨hgood, hbad⟩
  · split
    next => exact ⟨rfl, rfl, rfl⟩
    next hlast => exact ⟨rfl, by show L.bad + 1 + 1 ≤ k.resyncBudget; omega, rfl⟩

/-- R148: HARD_LOCK holds no counter, and its first miss enters SOFT_LOCK inside a streak. -/
theorem lockInRange_syHardLock (hgood : 1 ≤ k.nGood) (hslip : 1 ≤ k.nSlip) (accept : Bool) :
    LockInRange k (syHardLock accept) := by
  cases accept with
  | true => exact ⟨rfl, rfl, rfl⟩
  | false => exact ⟨hgood, hslip⟩

/-- R149: every transition keeps the counters in the ranges of the lock state. -/
theorem lockInRange_syStep (hgood : 1 ≤ k.nGood) (hbad : 1 ≤ k.nBad) (hslip : 1 ≤ k.nSlip)
    (hbudget : 1 ≤ k.resyncBudget) (d : Nat) (h : LockInRange k L) : LockInRange k (syStep k L d) := by
  cases hst : L.st with
  | unlocked => rw [syStep_of_unlocked hst]; exact lockInRange_syUnlocked hbad hgood _
  | softLock => rw [syStep_of_softLock hst]; exact lockInRange_sySoftLock hgood hslip hbudget hst h _
  | resync => rw [syStep_of_resync hst]; exact lockInRange_syResync hgood hbad hst h _
  | hardLock => rw [syStep_of_hardLock hst]; exact lockInRange_syHardLock hgood hslip _

end

theorem lockInRange_initial (k : FamilyConsts) : LockInRange k FrameLock.initial := ⟨rfl, rfl, rfl⟩

/-- What every transition keeps holds of the FrameLock at the end of the loop. -/
theorem syncLoop_lock_of_invariant {k : FamilyConsts} {P : FrameLock → Prop} (hstep : ∀ L d, P L → P (syStep k L d))
    (dist : Nat → Nat) (n fuel pos : Nat) {L : FrameLock} (hL : P L) : P (syncLoop k dist n fuel pos L).lock := by
  induction fuel generalizing pos L with
  | zero => exact hL
  | succ fuel ih =>
    cases hadm : admitted k n pos with
    | false => rw [syncLoop_stop k dist n _ pos L hadm]; exact hL
    | true => rw [syncLoop_next k dist n fuel pos L hadm]; exact ih _ (hstep L _ hL)

/-- What every transition keeps holds before every candidate of a pass. -/
theorem passTrace_lock_of_invariant {k : FamilyConsts} {P : FrameLock → Prop} (hstep : ∀ L d, P L → P (syStep k L d))
    (dist : Nat → Nat) (n : Nat) (hinitial : P FrameLock.initial) : P (passTrace k dist n).2 := by
  induction n with
  | zero => exact hinitial
  | succ n ih => exact hstep _ _ ih

/-- Settles O33: the ranges hold of the initial FrameLock, and every transition keeps them. -/
theorem passKeepsCountersInRange : Obligations.PassKeepsCountersInRange := by
  intro k dist hgood hbad hslip hbudget
  have hstep : ∀ L d, LockInRange k L → LockInRange k (syStep k L d) := fun L d h =>
    lockInRange_syStep hgood hbad hslip hbudget d h
  exact ⟨fun n => passTrace_lock_of_invariant hstep dist n (lockInRange_initial k),
    fun n => syncLoop_lock_of_invariant hstep dist n _ _ (lockInRange_initial k)⟩

/-- Settles O27: the bounds and steps are those of their tables; each row is the branch of its state that the row's
condition takes; the turn of the loop is that of an admitted position. -/
theorem lockMachineTransitions : Obligations.LockMachineTransitions := by
  refine ⟨fun k => ⟨⟨rfl, rfl, rfl, rfl⟩, rfl, rfl, rfl, rfl⟩, fun k hgood hbad hslip L d => ?rows⟩
  refine ⟨?unlockedLocks, ?unlockedFree, ?unlockedRejects, ?softCounts, ?softHard, ?softSlips, ?softResync, ?softMisses,
    ?softLost, ?resyncFound, ?resyncCounts, ?resyncLost, ?hardKeeps, ?hardMisses, accepted_iff, ?turn⟩
  case unlockedLocks => intro hst hd hlocks; simp [syStep_of_unlocked hst, syUnlocked, hd, hlocks]
  case unlockedFree => intro hst hd hfree; simp [syStep_of_unlocked hst, syUnlocked, hfree]
  case unlockedRejects => intro hst hd; simp [syStep_of_unlocked hst, syUnlocked, hd]
  case softCounts => intro hst hd hcount; simp [syStep_of_softLock hst, sySoftLock, hd, hgood, hcount.ne]
  case softHard => intro hst hd hcount; simp [syStep_of_softLock hst, sySoftLock, hd, hgood, hcount]
  case softSlips =>
    intro hst hd hstreak hcount
    simp [syStep_of_softLock hst, sySoftLock, hd.not_ge, hslip, hstreak, hcount.ne]
  case softResync =>
    intro hst hd hstreak hcount
    simp [syStep_of_softLock hst, sySoftLock, hd.not_ge, hslip, hstreak, hcount]
  case softMisses =>
    intro hst hd hstreak hcount
    simp [syStep_of_softLock hst, sySoftLock, hd.not_ge, hbad, hstreak, hcount.ne]
  case softLost =>
    intro hst hd hstreak hcount
    simp [syStep_of_softLock hst, sySoftLock, hd.not_ge, hbad, hstreak, hcount]
  case resyncFound => intro hst hd; simp [syStep_of_resync hst, syResync, hd]
  case resyncCounts => intro hst hd hcount; simp [syStep_of_resync hst, syResync, hd.not_ge, hcount.ne]
  case resyncLost => intro hst hd hcount; simp [syStep_of_resync hst, syResync, hd.not_ge, hcount]
  case hardKeeps => intro hst hd; simp [syStep_of_hardLock hst, syHardLock, hd]
  case hardMisses => intro hst hd; simp [syStep_of_hardLock hst, syHardLock, hd.not_ge]
  case turn =>
    intro dist n fuel pos hadm
    rw [syncLoop_next k dist n fuel pos L hadm]
    simp only [accepted_iff, and_self]

/-! ### The trace of candidates -/

section
variable {k : FamilyConsts} (dist : Nat → Nat)

/-- The position of candidate `i` of a pass. -/
def candidate (k : FamilyConsts) (dist : Nat → Nat) (i : Nat) : Nat := (passTrace k dist i).1

/-- Whether candidate `i` of a pass is accepted (R143). -/
def candidateAccepted (k : FamilyConsts) (dist : Nat → Nat) (i : Nat) : Bool :=
  accepted k (passTrace k dist i).2 (dist (candidate k dist i))

/-- R144: both scan steps are positive where UNIT and STRIDE_BITS are. -/
theorem scanStep_pos (hunit : 1 ≤ k.unit) (hstride : 1 ≤ k.strideBits) (st : LockState) : 1 ≤ scanStep k st := by
  cases st
  · exact hunit
  · exact hstride
  · exact hunit
  · exact hstride

theorem candidate_lt_succ (hunit : 1 ≤ k.unit) (hstride : 1 ≤ k.strideBits) (i : Nat) :
    candidate k dist i < candidate k dist (i + 1) :=
  Nat.lt_add_of_pos_right (scanStep_pos hunit hstride _)

/-- R151: the cursor rises at every candidate. -/
theorem candidate_strictMono (hunit : 1 ≤ k.unit) (hstride : 1 ≤ k.strideBits) : StrictMono (candidate k dist) :=
  strictMono_nat_of_lt_succ (candidate_lt_succ dist hunit hstride)

/-- The accepted ones among the `m` candidates from candidate `i` on, in order. -/
def acceptedFrom (k : FamilyConsts) (dist : Nat → Nat) (i m : Nat) : List Nat :=
  ((List.range' i m).filter (candidateAccepted k dist)).map (candidate k dist)

theorem acceptedFrom_succ (i m : Nat) :
    acceptedFrom k dist i (m + 1) =
      (if candidateAccepted k dist i then [candidate k dist i] else []) ++ acceptedFrom k dist (i + 1) m := by
  rw [acceptedFrom, List.range'_succ, List.filter_cons]
  split <;> rfl

/-- R150 to R152: from candidate `i` on, with fuel for every bit left, the loop examines some `m` candidates, each
admitted, stops at the next, which is not, and finds the accepted ones. -/
theorem syncLoop_follows_trace (hunit : 1 ≤ k.unit) (hstride : 1 ≤ k.strideBits) {n fuel : Nat} (i : Nat)
    (hfuel : n < candidate k dist i + fuel) :
    ∃ m, (∀ j, i ≤ j → j < i + m → admitted k n (candidate k dist j) = true) ∧
      admitted k n (candidate k dist (i + m)) = false ∧
      syncLoop k dist n fuel (candidate k dist i) (passTrace k dist i).2 =
        { found := acceptedFrom k dist i m
          lock := (passTrace k dist (i + m)).2
          pos := candidate k dist (i + m) } := by
  induction fuel generalizing i with
  | zero =>
    have hadm : admitted k n (candidate k dist i) = false := decide_eq_false (by omega)
    exact ⟨0, fun j _ _ => by omega, hadm, rfl⟩
  | succ fuel ih =>
    cases hadm : admitted k n (candidate k dist i) with
    | false => exact ⟨0, fun j _ _ => by omega, hadm, syncLoop_stop k dist n _ _ _ hadm⟩
    | true =>
      have hrises := candidate_lt_succ dist hunit hstride i
      obtain ⟨m, hbefore, hend, hloop⟩ := ih (i + 1) (by omega)
      rw [Nat.add_right_comm, Nat.add_assoc] at hend hloop
      refine ⟨m + 1, fun j hij hj => ?admitted, hend, ?loop⟩
      case admitted =>
        rcases Nat.eq_or_lt_of_le hij with rfl | hlater
        · exact hadm
        · exact hbefore j hlater (by omega)
      case loop =>
        have hturn := syncLoop_next k dist n fuel (candidate k dist i) (passTrace k dist i).2 hadm
        rw [acceptedFrom_succ]
        refine hturn.trans ?_
        exact congrArg (fun r : PassResult => { r with
          found := (if candidateAccepted k dist i then [candidate k dist i] else []) ++ r.found }) hloop

/-- R150 to R153: a whole pass. Candidates rise by at least one bit each, which bounds their number. -/
theorem syncPass_follows_trace (hunit : 1 ≤ k.unit) (hstride : 1 ≤ k.strideBits) (n : Nat) :
    ∃ m, (∀ i, i < m → candidate k dist i + max k.w k.strideBits ≤ n) ∧
      n < candidate k dist m + max k.w k.strideBits ∧ m ≤ n + 1 - max k.w k.strideBits ∧
      syncPass k dist n =
        { found := acceptedFrom k dist 0 m, lock := (passTrace k dist m).2, pos := candidate k dist m } := by
  obtain ⟨m, hbefore, hend, hloop⟩ := syncLoop_follows_trace dist hunit hstride (n := n) (fuel := n + 1) 0 (by omega)
  rw [Nat.zero_add] at hend hloop
  have hwhole : ∀ i, i < m → candidate k dist i + max k.w k.strideBits ≤ n := fun i hi =>
    of_decide_eq_true (hbefore i (Nat.zero_le i) (by omega))
  have hbound : m ≤ n + 1 - max k.w k.strideBits := by
    cases m with
    | zero => exact Nat.zero_le _
    | succ m =>
      have hrises : m ≤ candidate k dist m := (candidate_strictMono dist hunit hstride).le_apply
      have hlast := hwhole m (Nat.lt_succ_self m)
      omega
  exact ⟨m, hwhole, Nat.lt_of_not_le (of_decide_eq_false hend), hbound, hloop⟩

theorem acceptedFrom_zero (m : Nat) :
    acceptedFrom k dist 0 m = ((List.range m).filter (candidateAccepted k dist)).map (candidate k dist) := by
  rw [acceptedFrom, List.range_eq_range']

/-- Settles O28: the `m` candidates are those the loop examines. -/
theorem passIsTheWhileLoop : Obligations.PassIsTheWhileLoop := by
  intro k dist n hunit hstride
  obtain ⟨m, hwhole, hend, hbound, hpass⟩ := syncPass_follows_trace dist hunit hstride n
  exact ⟨m, hwhole, hend, hbound, by rw [hpass, acceptedFrom_zero]; rfl, by rw [hpass], by rw [hpass]; rfl⟩

/-- Settles O29: the FrameStarts are candidates that were admitted, the cursor rises from one to the next, and there are
no more of them than candidates. -/
theorem passEndsAndAscends : Obligations.PassEndsAndAscends := by
  intro k dist n hunit hstride
  obtain ⟨m, hwhole, hend, hbound, hpass⟩ := syncPass_follows_trace dist hunit hstride n
  rw [hpass, acceptedFrom_zero]
  refine ⟨?ascends, fun p hp => ?whole, hend, ?number⟩
  case ascends =>
    exact ((List.pairwise_lt_range.filter _).map _ fun _ _ hij => candidate_strictMono dist hunit hstride hij)
  case whole =>
    obtain ⟨i, hi, rfl⟩ := List.mem_map.1 hp
    exact hwhole i (List.mem_range.1 (List.mem_of_mem_filter hi))
  case number =>
    calc (((List.range m).filter (candidateAccepted k dist)).map (candidate k dist)).length
        ≤ (List.range m).length := by rw [List.length_map]; exact List.length_filter_le _ _
      _ ≤ n + 1 - max k.w k.strideBits := by rwa [List.length_range]

/-! ### Families that lock -/

/-- R144 to R148: in a family that locks, an accepted candidate leads to SOFT_LOCK or HARD_LOCK, whose step is the
stride. -/
theorem scanStep_of_accepted (hlocks : k.locking = true) {L : FrameLock} {d : Nat} (haccepted : accepted k L d = true) :
    scanStep k (syStep k L d).st = k.strideBits := by
  rw [syStep, haccepted]
  cases L.st with
  | unlocked => simp [syUnlocked, hlocks, scanStep]
  | softLock => simp only [sySoftLock, if_true]; split <;> rfl
  | resync => rfl
  | hardLock => rfl

/-- R153: behind an accepted candidate of a family that locks, every later one is a stride away or more. -/
theorem candidate_stride (hlocks : k.locking = true) (hunit : 1 ≤ k.unit) (hstride : 1 ≤ k.strideBits) {i j : Nat}
    (haccepted : candidateAccepted k dist i = true) (hij : i < j) :
    candidate k dist i + k.strideBits ≤ candidate k dist j :=
  calc candidate k dist i + k.strideBits
      = candidate k dist (i + 1) := congrArg _ (scanStep_of_accepted hlocks haccepted).symm
    _ ≤ candidate k dist j := (candidate_strictMono dist hunit hstride).monotone hij

/-- Settles O30: the earlier of two FrameStarts is an accepted candidate. -/
theorem lockedFramesNeverOverlap : Obligations.LockedFramesNeverOverlap := by
  intro k dist n hlocks hunit hstride
  obtain ⟨m, _, _, _, hpass⟩ := syncPass_follows_trace dist hunit hstride n
  rw [hpass, acceptedFrom_zero]
  refine List.Pairwise.map _ (fun _ _ h => h) (List.pairwise_filter.2 ?_)
  exact List.pairwise_lt_range.imp fun hij haccepted _ => candidate_stride dist hlocks hunit hstride haccepted hij

end

end Sys2Proof.Machine
end

section
/-! PROOF. SYNC (O35): its checks are the family and V_LDB in family M, and its result is the pass over the bit source, with
EMPTY and VALID (R152, R244, R246). -/
namespace Sys2Proof.Machine

/-- R246: a command passes its checks where the family makes it legal, the VALID bit it requires is set, and no range it
checks is broken. -/
theorem refusalOf_passed {i : Instr} {s : State} {f : Family} (hused : anyFamily i = false) (hfam : family s = some f)
    (hlegal : legalIn i f = true) (hvalid : ∀ v, requiredValid i f = some v → validBit s v = true)
    (hrange : outOfRange i s f = false) : refusalOf i s = none := by
  rw [refusalOf_eq_ordered hused]
  exact orderedRefusal_passed hfam hlegal hvalid hrange

/-- R246: a command to which a flag applies first is refused with it. -/
theorem exec_of_firstRefusal {i : Instr} {s : State} {e : ErrFlag} (h : FirstRefusal i s e) :
    exec i s = .next (refuse e s) :=
  exec_of_refused ((refusalOf_eq_some_iff i s e).2 h)

/-- R37: the VALID bits after a command that cleared some and then set one of them. -/
theorem validKeptBut_of_valid_eq {vs : List ValidBit} {v : ValidBit} {s t : State} (hv : v ∈ vs)
    (h : t.valid = (setValid v (clearValid vs s)).valid) :
    ValidKeptBut vs s t ∧ validBit t v = true ∧ ∀ w ∈ vs, w ≠ v → validBit t w = false := by
  have hbit : ∀ w, validBit t w = (validBit s w && !decide (w ∈ vs) || decide (w = v)) := by
    intro w
    rw [← validBit_clearValid, ← validBit_setValid, validBit, h, validBit]
  obtain ⟨hkept, hreserved⟩ := validKeptBut_setValid hv (validKeptBut_clearValid vs s)
  refine ⟨⟨fun w hw => ?kept, by rw [h, hreserved]⟩, ?set, fun w hw hother => ?cleared⟩
  case kept => rw [← hkept w hw, validBit, h, validBit]
  case set => rw [hbit, decide_eq_true rfl, Bool.or_true]
  case cleared =>
    rw [hbit, decide_eq_true hw, decide_eq_false hother, Bool.not_true, Bool.and_false, Bool.or_false]

/-- Setting a VALID bit writes in no part: VALID belongs to none. -/
theorem partKept_setValid (p : Part) (v : ValidBit) (s t : State) : PartKept p s (setValid v t) ↔ PartKept p s t := by
  cases p <;> exact Iff.rfl

/-- Putting a flag writes in no part: STATUS belongs to none. -/
theorem partKept_putFlag (p : Part) (f : StatusFlag) (b : Bool) (s t : State) :
    PartKept p s (putFlag f b t) ↔ PartKept p s t := by
  cases b <;> cases p <;> exact Iff.rfl

section
variable {s : State} {f : Family}

/-- R152, R244: SYNC passes its checks in every family, in family M with V_LDB. -/
theorem exec_sync_of_passed (hfam : family s = some f) (hldb : f = .m → validBit s .ldb = true) :
    exec .sync s = .next (endCommand (syncResultIn f s)) := by
  have hrequired : ∀ v, requiredValid .sync f = some v → validBit s v = true := by
    intro v hv
    cases f with
    | m => cases hv; exact hldb rfl
    | d | c => cases hv
  rw [← syncResult_eq hfam]
  exact exec_of_passed (refusalOf_passed rfl hfam rfl hrequired rfl)

end

variable (f : Family) (s : State)

/-- R37, R152: the VALID bits SYNC clears, V_FS among them. -/
theorem syncClears_eq :
    syncClears f = if f = .d then [.fs, .dmx, .spn] else [.fs, .dmx, .spn, .pix, .chi] := by
  cases f <;> rfl

/-- R152: FS holds what the pass found, in order. -/
theorem fsElem_syncResultIn {k : Nat} (hk : k < (sourcePass s f).found.length) :
    (sourcePass s f).found[k]? = some (fsElem (syncResultIn f s) k) := by
  obtain ⟨_, hread, _⟩ := syncResultIn_reads f s
  rw [fsElem, hread, List.getElem?_eq_getElem hk, Option.getD_some]

theorem valid_syncResultIn :
    (syncResultIn f s).valid = (setValid .fs (clearValid (syncClears f) s)).valid := by
  simp [syncResultIn]

/-- R152: EMPTY says that the pass found nothing. -/
theorem flag_empty_syncResultIn :
    flag (syncResultIn f s) .empty = decide ((sourcePass s f).found.length = 0) := by
  rw [syncResultIn, flag_setValid, flag_putFlag, if_pos rfl]
  cases (sourcePass s f).found <;> rfl

theorem flagsKeptBut_syncResultIn : FlagsKeptBut [.empty] s (syncResultIn f s) :=
  flagsKeptBut_putFlag _ (List.mem_singleton_self _) ⟨fun _ _ => rfl, rfl⟩

/-- SYNC writes FS and the lock registers and no other part. -/
theorem keptBut_syncResultIn : KeptBut [.fs, .lock] s (syncResultIn f s) := by
  intro p hp
  have hsame : PartKept p s s := partKept_refl p s
  refine (partKept_setValid p _ s _).2 ((partKept_putFlag p _ _ s _).2 ?_)
  cases p
  case fs => exact absurd hp (by decide)
  case lock => exact absurd hp (by decide)
  all_goals exact hsame

/-- Settles O35: the first refusal is the one SYNC's checks raise; where they pass, the command stores the pass. -/
theorem syncStoresThePass : Obligations.SyncStoresThePass := by
  refine ⟨fun s e hrefused => exec_of_firstRefusal hrefused, fun s f hfam hldb => ?stored⟩
  case stored =>
    have hexec := exec_sync_of_passed hfam hldb
    obtain ⟨hcount, _, hlock, hpos⟩ := syncResultIn_reads f s
    have hfs : ValidBit.fs ∈ syncClears f := by cases f <;> decide
    obtain ⟨hvalid, hset, hcleared⟩ := validKeptBut_of_valid_eq hfs (valid_syncResultIn f s)
    have hfound := fun k => fsElem_syncResultIn f s (k := k)
    have hempty := flag_empty_syncResultIn f s
    have hflags := flagsKeptBut_syncResultIn f s
    have hkept := keptBut_syncResultIn f s
    generalize syncResultIn f s = x at hexec hcount hlock hpos hvalid hset hcleared hfound hempty hflags hkept
    rw [← hcount] at hempty
    rw [syncClears_eq] at hvalid hcleared
    exact ⟨endCommand x, hexec, ended_endCommand x, hcount, fun k hk => hfound k (hcount ▸ hk), hlock, hpos,
      (flag_endCommand _ x).trans hempty, flagsKeptBut_endCommand hflags, hset,
      hcleared .dmx (by split <;> decide) (by decide), hcleared .spn (by split <;> decide) (by decide),
      fun hf => ⟨hcleared .pix (by rw [if_neg hf]; decide) (by decide),
        hcleared .chi (by rw [if_neg hf]; decide) (by decide)⟩,
      hvalid, keptBut_endCommand hkept⟩

end Sys2Proof.Machine
end

section
/-! PROOF. DECCH (O46, O47): its checks are V_DMX outside family D, the channel and the lines, and its result is one row of
scaled samples per line; unpacking a line and selecting the channel writes the same row again (R208, R209, R228). -/
namespace Sys2Proof.Machine

section
variable {s : State} {f : Family}

/-- R228: no line leaves the unpack source when every line ends inside it. -/
theorem lineLeaves_eq_false
    (hlines : ∀ r, r < s.lineCount → lineElem s r + lineBytes s f ≤ unpackLen s f) : lineLeaves s f = false := by
  simpa [lineLeaves] using hlines

/-- R228, R244: DECCH passes its checks with V_DMX outside family D, a channel of the family and every line inside the
unpack source. -/
theorem exec_decch_of_passed (hfam : family s = some f) (hdmx : f ≠ .d → validBit s .dmx = true)
    (hlow : 1 ≤ channel s) (hhigh : channel s ≤ (s.cfg.family f).nch)
    (hlines : ∀ r, r < s.lineCount → lineElem s r + lineBytes s f ≤ unpackLen s f) :
    exec .decch s = .next (endCommand (decchResultIn f s)) := by
  have hrequired : ∀ v, requiredValid .decch f = some v → validBit s v = true := by
    intro v hv
    cases f with
    | d => cases hv
    | m | c => cases hv; exact hdmx (by decide)
  have hchannel : channelIllegal s f = false := by
    rw [Bool.eq_false_iff, Ne, channelIllegal_iff]
    omega
  have hrange : outOfRange .decch s f = false := by rw [outOfRange, hchannel, lineLeaves_eq_false hlines, Bool.or_false]
  rw [← decchResult_eq hfam]
  exact exec_of_passed (refusalOf_passed rfl hfam rfl hrequired hrange)

end

variable (s : State) (f : Family)

theorem decchRow_length (r : Nat) : (decchRow s f r).length = (s.cfg.family f).width := by simp [decchRow]

/-- R228: pixel `p` of row `r` stands behind the rows before it. -/
theorem chiElem_decchResultIn {r p : Nat} (hr : r < s.lineCount) (hp : p < (s.cfg.family f).width) :
    chiElem (decchResultIn f s) (r * (s.cfg.family f).width + p) =
      scale (s.cfg.family f).mult
        (unpackSample s f (lineElem s r) (chanIndex (s.cfg.family f).nch (channel s) p)) := by
  have hinside : p < (decchRow s f r).length := by rwa [decchRow_length]
  have hplace := getElem?_flatMap_range (decchRow s f) hr hinside
  rw [length_flatMap_const _ _ (decchRow_length s f), List.length_range, List.getElem?_eq_getElem hinside] at hplace
  have hread : Memory.read (decchResultIn f s).chi (r * (s.cfg.family f).width + p) = some (decchRow s f r)[p] := by
    simpa [decchResultIn] using hplace
  rw [chiElem, hread, Option.getD_some]
  simp [decchRow]

theorem chiRows_decchResultIn : (decchResultIn f s).chiRows = s.lineCount := by simp [decchResultIn]

theorem valid_decchResultIn : (decchResultIn f s).valid = (setValid .chi (clearValid [.chi] s)).valid := by
  simp [decchResultIn]

/-- R228: EMPTY says that there is no line. -/
theorem flag_empty_decchResultIn : flag (decchResultIn f s) .empty = decide (s.lineCount = 0) := by
  rw [decchResultIn, flag_setValid, flag_putFlag, if_pos rfl]

theorem flagsKeptBut_decchResultIn : FlagsKeptBut [.empty] s (decchResultIn f s) :=
  flagsKeptBut_putFlag _ (List.mem_singleton_self _) ⟨fun _ _ => rfl, rfl⟩

/-- DECCH writes CHI and no other part. -/
theorem keptBut_decchResultIn : KeptBut [.chi] s (decchResultIn f s) := by
  intro p hp
  have hsame : PartKept p s s := partKept_refl p s
  refine (partKept_setValid p _ s _).2 ((partKept_putFlag p _ _ s _).2 ?_)
  cases p
  case chi => exact absurd (List.mem_singleton_self _) hp
  all_goals exact hsame

/-- Settles O46: the first refusal is the one DECCH's checks raise; where they pass, the command stores the rows. -/
theorem decchBuildsTheImage : Obligations.DecchBuildsTheImage := by
  refine ⟨fun s e hrefused => exec_of_firstRefusal hrefused, fun s f hfam hdmx hlow hhigh hlines => ?stored⟩
  case stored =>
    simp only [← lineBytes_eq, ← unpackLen_eq] at hlines
    have hexec := exec_decch_of_passed hfam hdmx hlow hhigh hlines
    obtain ⟨hvalid, hset, _⟩ := validKeptBut_of_valid_eq (List.mem_singleton_self _) (valid_decchResultIn s f)
    have hrows := chiRows_decchResultIn s f
    have hpixel := fun r p => chiElem_decchResultIn s f (r := r) (p := p)
    have hempty := flag_empty_decchResultIn s f
    have hflags := flagsKeptBut_decchResultIn s f
    have hkept := keptBut_decchResultIn s f
    generalize decchResultIn f s = x at hexec hvalid hset hrows hpixel hempty hflags hkept
    refine ⟨endCommand x, hexec, ended_endCommand x, hrows, fun r p hr hp => ?pixel,
      (flag_endCommand _ x).trans hempty, flagsKeptBut_endCommand hflags, hset, hvalid, keptBut_endCommand hkept⟩
    case pixel =>
      refine Eq.trans (hpixel r p hr hp) ?_
      cases f <;> rfl

/-! ### A row again, by unpacking and selecting -/

section
variable {s t : State} {f : Family}

/-- R228: the samples of the unpack source are read from CAP or DMX, under the family constants. -/
theorem unpackSample_of_kept (hcfg : t.cfg = s.cfg) (hcap : PartKept .cap s t) (hdmx : PartKept .dmx s t) (a k : Nat) :
    unpackSample t f a k = unpackSample s f a k := by
  obtain ⟨_, hcap⟩ := hcap
  obtain ⟨_, hdmx⟩ := hdmx
  have hcap : capByte t = capByte s := funext hcap
  have hdmx : dmxByte t = dmxByte s := funext hdmx
  cases f <;> simp only [unpackSample, unpackByte, hcfg, hcap, hdmx]

theorem unpackLen_of_kept (hcap : PartKept .cap s t) (hdmx : PartKept .dmx s t) : unpackLen t f = unpackLen s f := by
  obtain ⟨hcap, _⟩ := hcap
  obtain ⟨hdmx, _⟩ := hdmx
  cases f
  · exact hcap
  · exact hdmx
  · exact hdmx

/-- R202, R205: the unpacking command of the family stores the run of the ARG registers. -/
theorem exec_unpack_of_passed (hfam : family s = some f) (hdmx : f ≠ .d → validBit s .dmx = true)
    (hspan : s.argBase + spanBytes f s.argCount ≤ unpackLen s f) :
    exec (if f = .d then .unpk16 else .unpk10) s =
      .next (endCommand (putPix (unpackRun s f s.argBase s.argCount) s)) := by
  by_cases hf : f = .d
  · subst hf
    exact exec_of_passed (i := .unpk16) (unpk16Refusal_passed hfam hspan)
  · have hbytes : s.argBase + (10 * s.argCount + 7) / 8 ≤ s.dmxLen := by
      cases f with
      | d => exact absurd rfl hf
      | m => exact hspan
      | c => exact hspan
    rw [if_neg hf, ← unpk10Result_eq hfam]
    exact exec_of_passed (unpk10Refusal_passed hfam hf (hdmx hf) hbytes)

/-- R208: pixel `p` of a channel of the family is one of the samples of the scan line. -/
theorem chanIndex_lt {nch width c p : Nat} (hlow : 1 ≤ c) (hhigh : c ≤ nch) (hp : p < width) :
    chanIndex nch c p < nch * width :=
  calc chanIndex nch c p
      < nch + p * nch := Nat.add_lt_add_right (by omega) _
    _ = nch * (p + 1) := by rw [Nat.mul_succ, Nat.mul_comm, Nat.add_comm]
    _ ≤ nch * width := Nat.mul_le_mul_left _ hp

/-- The flags among which no error flag stands are the only ones a command changes. -/
theorem errFlag_of_flagsKeptBut {but : List StatusFlag} (hsub : but ⊆ [.busy, .done, .empty, .skip])
    (h : FlagsKeptBut but s t) (e : ErrFlag) : flag t e.flag = flag s e.flag := by
  obtain ⟨hflags, _⟩ := h
  exact hflags e.flag fun hmem => e.flag_not_mem (hsub hmem)

end

/-- Channel `CONFIG.CHANNEL` of PIX written as row `r` of CHI (R209). -/
def rowSelected (f : Family) (r : Nat) (u : State) : State := chselResultIn f { u with argRow := r }

section
variable {u : State} {f : Family} {r : Nat}

/-- R209: with V_PIX, a channel of the family, a whole line in PIX and an existing row, the row is selected. -/
theorem exec_chsel_row (hfam : family u = some f) (hpix : validBit u .pix = true) (hlow : 1 ≤ channel u)
    (hhigh : channel u ≤ (u.cfg.family f).nch) (hlen : u.pixLen = (u.cfg.family f).nch * (u.cfg.family f).width)
    (hr : r < u.chiRows) : exec .chsel { u with argRow := r } = .next (endCommand (rowSelected f r u)) := by
  have hfam' : family { u with argRow := r } = some f := hfam
  rw [rowSelected, ← chselResult_eq hfam']
  exact exec_of_passed (chselRefusal_passed hfam' hpix hlow hhigh hlen hr.le)

theorem chiElem_rowSelected_row {p : Nat} (hp : p < (u.cfg.family f).width) :
    chiElem (rowSelected f r u) (r * (u.cfg.family f).width + p) =
      pixElem u (chanIndex (u.cfg.family f).nch (channel u) p) :=
  chiElem_chselResultIn_row { u with argRow := r } f hp

theorem chiElem_rowSelected_other {k : Nat}
    (hk : k < r * (u.cfg.family f).width ∨ r * (u.cfg.family f).width + (u.cfg.family f).width ≤ k) :
    chiElem (rowSelected f r u) k = chiElem u k :=
  chiElem_chselResultIn_other { u with argRow := r } f hk

/-- R209: with an existing row the row count stands. -/
theorem chiRows_rowSelected (hr : r < u.chiRows) : (rowSelected f r u).chiRows = u.chiRows := if_neg hr.ne

theorem errFlag_rowSelected (e : ErrFlag) : flag (endCommand (rowSelected f r u)) e.flag = flag u e.flag := by
  have hflags : FlagsKeptBut [.busy, .done] u (endCommand (rowSelected f r u)) :=
    flagsKeptBut_endCommand (flagsKeptBut_of_status_eq rfl)
  exact errFlag_of_flagsKeptBut (by simp) hflags e

end

/-- The ARG registers set to unpack the scan line at byte `a` (R228). -/
def lineArgs (f : Family) (a : Nat) (t : State) : State :=
  { t with argBase := a, argCount := (t.cfg.family f).nch * (t.cfg.family f).width }

/-- PIX of `u` holds the scaled samples of the scan line at byte `a` of the unpack source of `t` (R202, R205). -/
def LineInPix (f : Family) (a : Nat) (t u : State) : Prop :=
  validBit u .pix = true ∧ u.pixLen = (t.cfg.family f).nch * (t.cfg.family f).width ∧
    ∀ k, k < u.pixLen → pixElem u k = scale (t.cfg.family f).mult (unpackSample t f a k)

section
variable {t : State} {f : Family} {a : Nat}

/-- R202, R205, R210: a line inside the unpack source is unpacked, scaled, into PIX; FAMILY, CHANNEL, CHI and the error
flags stand. -/
theorem exec_unpack_line (hfam : family t = some f) (hdmx : f ≠ .d → validBit t .dmx = true)
    (hline : a + lineBytes t f ≤ unpackLen t f) :
    ∃ u, exec (if f = .d then .unpk16 else .unpk10) (lineArgs f a t) = .next u ∧ LineInPix f a t u ∧
      (u.cfg = t.cfg ∧ u.config = t.config ∧ PartKept .chi t u) ∧ ∀ e : ErrFlag, flag u e.flag = flag t e.flag := by
  have hlen : unpackLen (lineArgs f a t) f = unpackLen t f := unpackLen_of_kept (partKept_refl .cap t) (partKept_refl .dmx t)
  have hsample : ∀ k, unpackSample (lineArgs f a t) f a k = unpackSample t f a k :=
    unpackSample_of_kept rfl (partKept_refl .cap t) (partKept_refl .dmx t) a
  have hexec := exec_unpack_of_passed (s := lineArgs f a t) hfam hdmx (hlen ▸ hline)
  have hpixLen := pixLen_putPix_unpackRun (lineArgs f a t) f a (lineArgs f a t).argCount
  have hpixElem := fun k => pixElem_putPix_unpackRun (lineArgs f a t) f a (n := (lineArgs f a t).argCount) (k := k)
  obtain ⟨hflags, hpix, _, hkept⟩ := endCommand_putPix_frame (unpackRun (lineArgs f a t) f a (lineArgs f a t).argCount)
    (lineArgs f a t)
  obtain ⟨hcfg, _⟩ := hkept .model (by decide)
  refine ⟨_, hexec, ⟨hpix, hpixLen, fun k hk => ?sample⟩, ⟨hcfg, hkept .config (by decide), hkept .chi (by decide)⟩,
    errFlag_of_flagsKeptBut (s := lineArgs f a t) (by simp) hflags⟩
  case sample =>
    rw [← hsample]
    exact hpixElem k (hpixLen ▸ hk)

end

/-- R228: unpacking the scan line at byte `a` and selecting the channel as the existing row `r` completes, raises no error
flag, and writes in CHI the channel's scaled samples of that line as row `r` and nothing else. -/
theorem exec_unpack_then_select {t : State} {f : Family} {a r : Nat} (hfam : family t = some f)
    (hdmx : f ≠ .d → validBit t .dmx = true) (hlow : 1 ≤ channel t) (hhigh : channel t ≤ (t.cfg.family f).nch)
    (hline : a + lineBytes t f ≤ unpackLen t f) (hr : r < t.chiRows) :
    ∃ u v, exec (if f = .d then .unpk16 else .unpk10) (lineArgs f a t) = .next u ∧
      exec .chsel { u with argRow := r } = .next v ∧ LineInPix f a t u ∧
      validBit v .chi = false ∧ (∀ e : ErrFlag, flag u e.flag = flag t e.flag ∧ flag v e.flag = flag t e.flag) ∧
      v.chiRows = t.chiRows ∧
      (∀ p, p < (t.cfg.family f).width → chiElem v (r * (t.cfg.family f).width + p) =
        scale (t.cfg.family f).mult (unpackSample t f a (chanIndex (t.cfg.family f).nch (channel t) p))) ∧
      ∀ k, k < r * (t.cfg.family f).width ∨ r * (t.cfg.family f).width + (t.cfg.family f).width ≤ k →
        chiElem v k = chiElem t k := by
  obtain ⟨u, hexec, ⟨hpix, hlen, hsamples⟩, ⟨hcfg, hconfig, hrows, hchi⟩, hflags⟩ := exec_unpack_line hfam hdmx hline
  have hfam' : family u = some f := by rw [family, hconfig]; exact hfam
  have hchannel : channel u = channel t := by rw [channel, hconfig, channel]
  have hwidth : (u.cfg.family f).width = (t.cfg.family f).width := by rw [hcfg]
  have hselect := exec_chsel_row hfam' hpix (hchannel ▸ hlow) (by rw [hchannel, hcfg]; exact hhigh)
    (by rw [hcfg]; exact hlen) (hrows ▸ hr)
  refine ⟨u, _, hexec, hselect, ⟨hpix, hlen, hsamples⟩, validBit_chi_chselResultIn _ f,
    fun e => ⟨hflags e, (errFlag_rowSelected e).trans (hflags e)⟩, (chiRows_rowSelected (f := f) (hrows ▸ hr)).trans hrows,
    fun p hp => ?row, fun k hk => ?other⟩
  case row =>
    have hinside := chanIndex_lt hlow hhigh hp
    have hrow := chiElem_rowSelected_row (u := u) (r := r) (hwidth ▸ hp)
    rw [hwidth, hcfg, hchannel, hsamples _ (hlen ▸ hinside)] at hrow
    exact hrow
  case other =>
    rw [← hwidth] at hk
    exact (chiElem_rowSelected_other hk).trans (hchi k)

/-- Settles O47: DECCH leaves the image of O46 and every other part, so each of its lines is unpacked as before, and the
row selected from it is the one that stands. -/
theorem decchRowIsUnpackThenSelect : Obligations.DecchRowIsUnpackThenSelect := by
  intro s t f r hfam hdmx hlow hhigh hlines hexec hr
  obtain ⟨_, himage⟩ := decchBuildsTheImage
  obtain ⟨t', hexec', _, hrows, hpixels, _, _, hset, ⟨hvalid, _⟩, hkept⟩ := himage s f hfam hdmx hlow hhigh hlines
  obtain rfl : t' = t := Host.Outcome.next.inj (hexec'.symm.trans hexec)
  obtain ⟨hcfg, _⟩ : PartKept .model s t' := hkept .model (by decide)
  have hconfig : t'.config = s.config := hkept .config (by decide)
  have hcap : PartKept .cap s t' := hkept .cap (by decide)
  have hdmxKept : PartKept .dmx s t' := hkept .dmx (by decide)
  have hsample : ∀ k, unpackSample t' f (lineElem s r) k = unpackSample s f (lineElem s r) k :=
    unpackSample_of_kept hcfg hcap hdmxKept _
  have hchannel : channel t' = channel s := by rw [channel, hconfig, channel]
  have hfam' : family t' = some f := by rw [family, hconfig]; exact hfam
  have hdmx' : f ≠ .d → validBit t' .dmx = true := fun hf => (hvalid .dmx (by decide)).trans (hdmx hf)
  have hline : lineElem s r + lineBytes t' f ≤ unpackLen t' f := by
    rw [unpackLen_of_kept hcap hdmxKept, lineBytes, hcfg, ← lineBytes, lineBytes_eq, unpackLen_eq]
    exact hlines r hr
  obtain ⟨u, v, hunpack, hselect, ⟨hpix, hlen, hsamples⟩, hchi, hflags, hrows', hrow, hother⟩ :=
    exec_unpack_then_select hfam' hdmx' (hchannel ▸ hlow) (by rw [hchannel, hcfg]; exact hhigh) hline (hrows ▸ hr)
  have hargs : lineArgs f (lineElem s r) t' =
      { t' with argBase := lineElem s r, argCount := (s.cfg.family f).nch * (s.cfg.family f).width } := by
    rw [← hcfg, lineArgs]
  rw [hargs] at hunpack
  rw [hcfg] at hlen hrow hother hsamples
  refine ⟨u, v, hunpack, hselect, hpix, hlen, fun k hk => (hsamples k hk).trans (by rw [hsample]), hset, hchi, hflags,
    hrows', fun k => ?elem⟩
  case elem =>
    by_cases hin : r * (s.cfg.family f).width ≤ k ∧ k < r * (s.cfg.family f).width + (s.cfg.family f).width
    · obtain ⟨hfrom, hto⟩ := hin
      obtain ⟨p, rfl⟩ := Nat.exists_eq_add_of_le hfrom
      have hp : p < (s.cfg.family f).width := by omega
      have hpixel := hpixels r p hr hp
      rw [hrow p hp, hpixel, hsample, hchannel]
      cases f <;> rfl
    · exact hother k (by omega)

end Sys2Proof.Machine
end

section
/-! PROOF. What a command writes, said once for every command but RESET (O54, O55): the parts of its product and the VALID
bits of the product and of what is downstream of it (R21, R31, R34, R37, R39, R268). -/
namespace Sys2Proof.Machine

/-- The parts a command other than RESET writes. -/
def writtenParts : Instr → List Part
  | .drgen => [.drt]
  | .ldec => [.ldb]
  | .sync => [.fs, .lock]
  | .demuxd => [.dmx, .bnd]
  | .demuxm => [.dmx, .bnd]
  | .spans => [.spn]
  | .unpk10 => [.pix]
  | .unpk16 => [.pix]
  | .chsel => [.chi]
  | .decch => [.chi]
  | .nop => []
  | .reset => []

/-- The VALID bits a command other than RESET writes (R37). -/
def writtenValid : Instr → List ValidBit
  | .ldec => ValidBit.all
  | .sync => [.fs, .dmx, .spn, .pix, .chi]
  | .demuxd => demuxClears
  | .demuxm => demuxClears
  | .spans => [.spn]
  | .unpk10 => [.pix]
  | .unpk16 => [.pix]
  | .chsel => [.chi]
  | .decch => [.chi]
  | .nop => []
  | .reset => []
  | .drgen => []

variable (s : State)

theorem keptBut_syncResult : KeptBut [.fs, .lock] s (syncResult s) := by
  unfold syncResult
  split
  · exact keptBut_syncResultIn _ s
  · exact keptBut_refl _ s

theorem keptBut_unpk10Result : KeptBut [.pix] s (unpk10Result s) := by
  unfold unpk10Result
  split
  · exact keptBut_putPix _ s
  · exact keptBut_refl _ s

theorem keptBut_chselResult : KeptBut [.chi] s (chselResult s) := by
  unfold chselResult
  split
  · exact keptBut_chselResultIn s _
  · exact keptBut_refl _ s

theorem keptBut_decchResult : KeptBut [.chi] s (decchResult s) := by
  unfold decchResult
  split
  · exact keptBut_decchResultIn s _
  · exact keptBut_refl _ s

/-- A command other than RESET writes its product and no other part. -/
theorem keptBut_resultOf {i : Instr} (hi : i ≠ .reset) : KeptBut (writtenParts i) s (resultOf i s) := by
  cases i with
  | reset => exact absurd rfl hi
  | nop => exact keptBut_refl _ s
  | drgen => exact keptBut_drgenResult s
  | ldec => exact keptBut_ldecResult s
  | sync => exact keptBut_syncResult s
  | demuxd => exact keptBut_putDemux _ _ s
  | demuxm => exact keptBut_putDemux _ _ s
  | spans => exact keptBut_spansResult s
  | unpk10 => exact keptBut_unpk10Result s
  | unpk16 => exact keptBut_putPix _ s
  | chsel => exact keptBut_chselResult s
  | decch => exact keptBut_decchResult s

/-- A command other than RESET, refused or run to its end, leaves every part but its product. -/
theorem exec_keptBut {i : Instr} {s t : State} (hi : i ≠ .reset) (hexec : exec i s = .next t) :
    KeptBut (writtenParts i) s t := by
  rcases (exec_next_iff i s t).1 hexec with ⟨e, _, rfl⟩ | ⟨_, rfl⟩
  · exact keptBut_refuse e (keptBut_refl _ s)
  · exact keptBut_endCommand (keptBut_resultOf s hi)

/-! ### VALID -/

theorem validKeptBut_refl (but : List ValidBit) : ValidKeptBut but s s := ⟨fun _ _ => rfl, rfl⟩

theorem validKeptBut_mono {but more : List ValidBit} {t : State} (hsub : but ⊆ more) (h : ValidKeptBut but s t) :
    ValidKeptBut more s t := by
  obtain ⟨hbits, hreserved⟩ := h
  exact ⟨fun v hv => hbits v fun hbut => hv (hsub hbut), hreserved⟩

theorem validKeptBut_syncResult : ValidKeptBut [.fs, .dmx, .spn, .pix, .chi] s (syncResult s) := by
  unfold syncResult
  split
  next f _ =>
    have hfs : ValidBit.fs ∈ syncClears f := by cases f <;> decide
    have hsub : syncClears f ⊆ [.fs, .dmx, .spn, .pix, .chi] := by cases f <;> simp [syncClears]
    obtain ⟨hkept, _⟩ := validKeptBut_of_valid_eq hfs (valid_syncResultIn f s)
    exact validKeptBut_mono s hsub hkept
  next => exact validKeptBut_refl s _

theorem validKeptBut_unpk10Result : ValidKeptBut [.pix] s (unpk10Result s) := by
  unfold unpk10Result
  split
  · exact validKeptBut_putPix _ s
  · exact validKeptBut_refl s _

theorem validKeptBut_chselResult : ValidKeptBut [.chi] s (chselResult s) := by
  unfold chselResult
  split
  · exact validKeptBut_chselResultIn s _
  · exact validKeptBut_refl s _

theorem validKeptBut_decchResult : ValidKeptBut [.chi] s (decchResult s) := by
  unfold decchResult
  split
  next f _ =>
    obtain ⟨hkept, _⟩ := validKeptBut_of_valid_eq (List.mem_singleton_self _) (valid_decchResultIn s f)
    exact hkept
  next => exact validKeptBut_refl s _

/-- R37: a command other than RESET writes the VALID bits of its product and of what is downstream of it. -/
theorem validKeptBut_resultOf {i : Instr} (hi : i ≠ .reset) : ValidKeptBut (writtenValid i) s (resultOf i s) := by
  cases i with
  | reset => exact absurd rfl hi
  | nop => exact validKeptBut_refl s _
  | drgen => exact validKeptBut_refl s _
  | ldec => exact ⟨fun v hv => absurd v.mem_all hv, reserved_ldecResult s⟩
  | sync => exact validKeptBut_syncResult s
  | demuxd => exact validKeptBut_putDemux _ _ s
  | demuxm => exact validKeptBut_putDemux _ _ s
  | spans => exact validKeptBut_spansResult s
  | unpk10 => exact validKeptBut_unpk10Result s
  | unpk16 => exact validKeptBut_putPix _ s
  | chsel => exact validKeptBut_chselResult s
  | decch => exact validKeptBut_decchResult s

/-- Settles O54: a refusal and the result of a command both end. -/
theorem everyCommandEnds : Obligations.EveryCommandEnds := by
  intro i s
  obtain ⟨t, hexec⟩ := exists_exec_next i s
  rcases (exec_next_iff i s t).1 hexec with ⟨e, _, rfl⟩ | ⟨_, rfl⟩
  · exact ⟨_, hexec, ended_endCommand _⟩
  · exact ⟨_, hexec, ended_endCommand _⟩

/-- Settles O55: none of the host's parts is among those a command writes. -/
theorem commandsKeepTheHostsObjects : Obligations.CommandsKeepTheHostsObjects := by
  intro i s t hi hexec
  have hkept := exec_keptBut hi hexec
  have hhost : ∀ p ∈ [Part.model, .config, .cap, .line, .args], p ∉ writtenParts i := by cases i <;> decide
  exact ⟨hkept _ (hhost _ (by decide)), hkept _ (hhost _ (by decide)), hkept _ (hhost _ (by decide)),
    hkept _ (hhost _ (by decide)), hkept _ (hhost _ (by decide))⟩

end Sys2Proof.Machine
end

section
/-! PROOF. The empty results (O53): each is a command that passes its checks, ends, and stores an empty product, and no
command that passes its checks writes an error flag (R241). -/
namespace Sys2Proof.Machine

/-- R150: over a source shorter than a frame the pass finds nothing. -/
theorem sourcePass_of_short {s : State} {f : Family}
    (hshort : 8 * srcLen s f < max (s.cfg.family f).w (s.cfg.family f).strideBits) : (sourcePass s f).found = [] := by
  have hadm : admitted (s.cfg.family f) (8 * srcLen s f) 0 = false := decide_eq_false (by omega)
  rw [sourcePass, syncPass, syncLoop_stop _ _ _ _ _ _ hadm]

/-- Settles O53: each case is the statement about its command (O26, O35, O36, O37, O39, O46) with an empty product. -/
theorem emptyResultsEndNormally : Obligations.EmptyResultsEndNormally := by
  obtain ⟨_, hldec⟩ := ldecDecodesEveryPair
  obtain ⟨_, hsync⟩ := syncStoresThePass
  obtain ⟨_, hdemuxd⟩ := demuxdConcatenatesTheSpans
  obtain ⟨_, hdemuxm⟩ := demuxmKeepsTheSelectedChannel
  obtain ⟨_, hspans⟩ := spansKeepsThePairsInsideDmx
  obtain ⟨_, hdecch⟩ := decchBuildsTheImage
  intro s
  refine ⟨fun hfam hlen => ?ldec, fun f hfam hldb hshort => ?sync, fun hfam hfs hnone => ?demuxd,
    fun hfam hfs hdropped => ?demuxm, fun hfam hdmx hfew => ?spans, fun f hfam hdmx hlow hhigh hnone => ?decch⟩
  case ldec =>
    obtain ⟨t, hexec, hended, hldbLen, _, _, _, hflags, _⟩ := hldec s hfam
    exact ⟨t, hexec, hended, by omega, errFlag_of_flagsKeptBut (by simp) hflags⟩
  case sync =>
    obtain ⟨t, hexec, hended, hcount, _, _, _, hempty, hflags, _⟩ := hsync s f hfam hldb
    have hzero : t.fsCount = 0 := by rw [hcount, sourcePass_of_short hshort, List.length_nil]
    exact ⟨t, hexec, hended, hzero, by rw [hempty, hzero]; rfl, errFlag_of_flagsKeptBut (by simp) hflags⟩
  case demuxd =>
    obtain ⟨t, hexec, hended, hlen, _, _, hempty, hflags, _⟩ := hdemuxd s hfam hfs
    have hzero : t.dmxLen = 0 := by rw [hlen, hnone, Nat.zero_mul]
    exact ⟨t, hexec, hended, hzero, by rw [hempty, hzero]; rfl, errFlag_of_flagsKeptBut (by simp) hflags⟩
  case demuxm =>
    obtain ⟨t, hexec, hended, hlen, _, _, _, hempty, hflags, _⟩ := hdemuxm s hfam hfs
    have hkept : keptBefore s s.fsCount = 0 := by
      rw [keptBefore, List.countP_eq_zero]
      exact fun f hf => Bool.eq_false_iff.1 (hdropped f (List.mem_range.1 hf))
    have hzero : t.dmxLen = 0 := by rw [hlen, hkept]
    exact ⟨t, hexec, hended, hzero, by rw [hempty, hzero]; rfl, errFlag_of_flagsKeptBut (by simp) hflags⟩
  case spans =>
    obtain ⟨t, hexec, hended, hcount, _, _, hskip, hflags, _⟩ := hspans s hfam hdmx
    have hpairs : s.bndCount - 1 = 0 := by omega
    have hzero : t.spnCount = 0 := by rw [hcount, hpairs]; rfl
    have hclear : flag t .skip = false := by
      rw [Bool.eq_false_iff, Ne, hskip, hpairs]
      rintro ⟨i, hi, _⟩
      exact Nat.not_lt_zero i hi
    exact ⟨t, hexec, hended, hzero, hclear, errFlag_of_flagsKeptBut (by simp) hflags⟩
  case decch =>
    obtain ⟨t, hexec, hended, hrows, _, hempty, hflags, _⟩ := hdecch s f hfam hdmx hlow hhigh
      fun r hr => absurd (hnone ▸ hr) (Nat.not_lt_zero r)
    exact ⟨t, hexec, hended, hrows.trans hnone, by rw [hempty, hnone]; rfl, errFlag_of_flagsKeptBut (by simp) hflags⟩

end Sys2Proof.Machine
end

section
/-! PROOF. PASSDIR steers no command (O52): a command reads CONFIG as FAMILY and CHANNEL alone, and writes no bit of it, so
turning PASSDIR over commutes with its checks, its result and its end (R34). -/
namespace Sys2Proof.Machine

variable (s : State)

/-! ### What a command reads of CONFIG -/

theorem family_flipPassdir : family (flipPassdir s) = family s := by
  have hother : (0x00000004#32).extractLsb' 0 2 = 0#2 := by decide
  rw [family, familyField, flipPassdir, BitVec.extractLsb'_xor, hother, BitVec.xor_zero, family, familyField]

theorem channel_flipPassdir : channel (flipPassdir s) = channel s := by
  have hother : (0x00000004#32).extractLsb' 3 4 = 0#4 := by decide
  rw [channel, flipPassdir, BitVec.extractLsb'_xor, hother, BitVec.xor_zero, channel]

theorem channelIllegal_flipPassdir (f : Family) : channelIllegal (flipPassdir s) f = channelIllegal s f := by
  rw [channelIllegal, channel_flipPassdir]
  rfl

theorem outOfRange_flipPassdir (i : Instr) (f : Family) : outOfRange i (flipPassdir s) f = outOfRange i s f := by
  cases i with
  | chsel =>
    rw [outOfRange, chselOutOfRange, channelIllegal_flipPassdir]
    rfl
  | decch =>
    rw [outOfRange, channelIllegal_flipPassdir]
    rfl
  | _ => rfl

/-- R246: no check of a command reads PASSDIR. -/
theorem refusalOf_flipPassdir (i : Instr) : refusalOf i (flipPassdir s) = refusalOf i s :=
  refusalOf_congr (family_flipPassdir s) (fun _ _ _ => rfl) (outOfRange_flipPassdir s i)

/-! ### The results -/

/-- The last updates of a command that stores a product write no bit of CONFIG. -/
theorem setValid_putFlag_flipPassdir (v : ValidBit) (f : StatusFlag) (b : Bool) :
    setValid v (putFlag f b (flipPassdir s)) = flipPassdir (setValid v (putFlag f b s)) := by
  cases b <;> rfl

theorem putDemux_flipPassdir (bytes : List Byte) (boundaries : List Nat) :
    putDemux bytes boundaries (flipPassdir s) = flipPassdir (putDemux bytes boundaries s) := by
  rw [putDemux, putDemux, ← setValid_putFlag_flipPassdir]
  rfl

theorem syncResult_flipPassdir : syncResult (flipPassdir s) = flipPassdir (syncResult s) := by
  unfold syncResult
  rw [family_flipPassdir]
  cases family s with
  | none => rfl
  | some f =>
    simp only [syncResultIn]
    rw [← setValid_putFlag_flipPassdir]
    rfl

theorem spansResult_flipPassdir : spansResult (flipPassdir s) = flipPassdir (spansResult s) := by
  simp only [spansResult]
  rw [← setValid_putFlag_flipPassdir]
  rfl

theorem unpk10Result_flipPassdir : unpk10Result (flipPassdir s) = flipPassdir (unpk10Result s) := by
  unfold unpk10Result
  rw [family_flipPassdir]
  cases family s <;> rfl

theorem chselRow_flipPassdir (f : Family) : chselRow (flipPassdir s) f = chselRow s f := by
  rw [chselRow, channel_flipPassdir]
  rfl

theorem chselResult_flipPassdir : chselResult (flipPassdir s) = flipPassdir (chselResult s) := by
  unfold chselResult
  rw [family_flipPassdir]
  cases family s with
  | none => rfl
  | some f =>
    simp only [chselResultIn, chselRow_flipPassdir]
    rfl

theorem decchRow_flipPassdir (f : Family) : decchRow (flipPassdir s) f = decchRow s f := by
  funext r
  rw [decchRow, channel_flipPassdir]
  rfl

theorem decchResult_flipPassdir : decchResult (flipPassdir s) = flipPassdir (decchResult s) := by
  unfold decchResult
  rw [family_flipPassdir]
  cases family s with
  | none => rfl
  | some f =>
    simp only [decchResultIn, decchRow_flipPassdir]
    rw [← setValid_putFlag_flipPassdir]
    rfl

/-- R34: PASSDIR turned over beforehand stands in the result of a command and changes nothing else of it. -/
theorem resultOf_flipPassdir {i : Instr} (hi : i ≠ .reset) :
    resultOf i (flipPassdir s) = flipPassdir (resultOf i s) := by
  cases i with
  | reset => exact absurd rfl hi
  | sync => exact syncResult_flipPassdir s
  | demuxd => exact putDemux_flipPassdir s _ _
  | demuxm => exact putDemux_flipPassdir s _ _
  | spans => exact spansResult_flipPassdir s
  | unpk10 => exact unpk10Result_flipPassdir s
  | chsel => exact chselResult_flipPassdir s
  | decch => exact decchResult_flipPassdir s
  | drgen => simp only [resultOf, drgenResult, flipPassdir]
  | nop | ldec | unpk16 => rfl

/-- Settles O52: both ends of a command commute with turning PASSDIR over. -/
theorem passdirSteersNoCommand : Obligations.PassdirSteersNoCommand := by
  intro i s hi
  have hchecks := refusalOf_flipPassdir s i
  cases hrefused : refusalOf i s with
  | some e => exact ⟨refuse e s, exec_of_refused hrefused, exec_of_refused (hchecks.trans hrefused)⟩
  | none =>
    refine ⟨_, exec_of_passed hrefused, ?_⟩
    rw [exec_of_passed (hchecks.trans hrefused), resultOf_flipPassdir s hi]
    rfl

end Sys2Proof.Machine
end

section
/-! PROOF. A step that is the block's (O4, O5, O8): with a code held and no access pending that may be made while busy, the
step is the command, and it touches none of the host's objects unless it is RESET (R72, R91; log 10). -/
namespace Sys2Proof.Machine

/-- R91: a held code that decodes runs as its command. -/
theorem step_of_held_legal {s : State} {c : Byte} {i : Instr} (hwf : s.cfg.wf = true) (hcmd : s.cmd = some c)
    (hwrite : ∀ v rest, s.host ≠ .writeReg 0x00 v :: rest) (hread : ∀ rest, s.host ≠ .readReg 0x01 :: rest)
    (hcode : decodeCommand c = .ok i) : step s = exec i s := by
  rw [step_of_held hwf hcmd hwrite hread, runHeld, hcode]

/-- Settles O4: the step is the run of the held code, which decodes. -/
theorem stepRunsTheHeldCommand : Obligations.StepRunsTheHeldCommand := fun _ _ _ hwf hcmd hwrite hread hcode =>
  step_of_held_legal hwf hcmd hwrite hread hcode

/-- R90: the bits of an instruction are one byte, which decodes to it. -/
theorem decodeCommand_of_decodeTableWord {w : Nat} {i : Instr} (h : decodeTableWord 8 w = some i) :
    decodeCommand (BitVec.ofNat 8 w) = .ok i := by
  have hbytes : tableBytes 8 w = [BitVec.ofNat 8 w] := by simp [tableBytes]
  rw [decodeTableWord, hbytes, decodeBytes] at h
  cases hcode : decodeCommand (BitVec.ofNat 8 w) with
  | ok j => rw [hcode] at h; cases h; rfl
  | error e => rw [hcode] at h; cases h

/-- Settles O5: the placed code is held, and the access placed before the host's is a poll, which waits. -/
theorem placedWordRunsNext : Obligations.PlacedWordRunsNext := fun _ _ _ hwf hword =>
  step_of_held_legal hwf rfl nofun nofun (decodeCommand_of_decodeTableWord hword)

/-- R72: an access that the spec gives no meaning while BUSY = 1 is neither a CMD write nor a STATUS read. -/
theorem madeWhileBusy_eq_false {a : HostAccess} (hwrite : ∀ v, a ≠ .writeReg 0x00 v) (hread : a ≠ .readReg 0x01) :
    madeWhileBusy a = false := by
  cases a with
  | writeReg n v => exact decide_eq_false fun hn => hwrite v (hn ▸ rfl)
  | readReg n => exact decide_eq_false fun hn => hread (hn ▸ rfl)
  | _ => rfl

/-- R40, R72: an access made while BUSY = 1 has no effect, and any other waits. -/
theorem step_of_busy {s : State} {a : HostAccess} {rest : List HostAccess} (hwf : s.cfg.wf = true)
    (hbusy : flag s .busy = true) (hhost : s.host = a :: rest) (hmade : s.cmd = none ∨ madeWhileBusy a = true) :
    step s = busyAccess a rest s := by
  rw [step_of_wf hwf, move, (nextAccess_eq_some_iff s a rest).2 ⟨hhost, hmade⟩]
  exact if_pos hbusy

/-- Settles O7: a CMD write is made while BUSY = 1, and then has no effect. -/
theorem cmdWriteWhileBusyIsIgnored : Obligations.CmdWriteWhileBusyIsIgnored := fun _ _ _ hwf hbusy hhost =>
  step_of_busy hwf hbusy hhost (.inr rfl)

/-- R91, R94: the run of a held code ends, and unless it is that of RESET it leaves what the host writes, and the host's
list, as they were. -/
theorem runHeld_keeps_hosts_objects (c : Byte) (s : State) :
    ∃ t, runHeld c s = .next t ∧ Ended t ∧ t.host = s.host ∧
      (c ≠ 0x01#8 → PartKept .config s t ∧ PartKept .cap s t ∧ PartKept .line s t ∧ PartKept .args s t) := by
  rcases runHeld_cases c s with ⟨i, hcode, hrun⟩ | ⟨_, _, hrun⟩
  · obtain ⟨t, hexec, hended⟩ := everyCommandEnds i s
    refine ⟨t, hrun.trans hexec, hended, ?_⟩
    by_cases hi : i = .reset
    · subst hi
      obtain rfl : endCommand (resetResult s) = t := Host.Outcome.next.inj hexec
      have hreset : c = 0x01#8 := by
        have hword := (mem_commandMap_iff c .reset).1 ((decodeCommand_eq_ok_iff c .reset).1 hcode)
        exact (List.singleton_inj.1 hword).symm
      exact ⟨rfl, fun hc => absurd hreset hc⟩
    · obtain ⟨⟨_, hhost, _⟩, hkept⟩ := commandsKeepTheHostsObjects i s t hi hexec
      exact ⟨hhost, fun _ => hkept⟩
  · have hkept := keptBut_refuse .errCmd (keptBut_refl [] s)
    exact ⟨_, hrun, ended_endCommand _, rfl, fun _ =>
      ⟨hkept _ List.not_mem_nil, hkept _ List.not_mem_nil, hkept _ List.not_mem_nil, hkept _ List.not_mem_nil⟩⟩

/-- Settles O8: the access is not one made while BUSY = 1, so it waits, and the step is the command's if there is one. -/
theorem noOtherAccessWhileBusy : Obligations.NoOtherAccessWhileBusy := by
  intro s a rest hwf hbusy hhost hwrite hread
  refine ⟨fun hcmd => ?waits, fun c hcmd => ?runs⟩
  case waits =>
    rw [step_of_busy hwf hbusy hhost (.inl hcmd), busyAccess, madeWhileBusy_eq_false hwrite hread]
    rfl
  case runs =>
    have hstep : step s = runHeld c s := by
      refine step_of_held hwf hcmd (fun v r h => ?_) (fun r h => ?_) <;> rw [hhost] at h <;> cases h
      · exact hwrite v rfl
      · exact hread rfl
    rw [hstep, ← hhost]
    exact runHeld_keeps_hosts_objects c s

end Sys2Proof.Machine
end

section
/-! PROOF. A step that is the host's, while idle (O6, O10 to O16): the next access is made, and each stores what it names
and nothing else (R34 to R40, R66, R68). -/
namespace Sys2Proof.Machine

/-- R40, R72: with no command in progress and BUSY = 0 the step is the host's next access. -/
theorem step_of_idle {s : State} {a : HostAccess} {rest : List HostAccess} (hwf : s.cfg.wf = true)
    (hcmd : s.cmd = none) (hidle : flag s .busy = false) (hhost : s.host = a :: rest) :
    step s = idleAccess a rest s := by
  rw [step_of_wf hwf, move, (nextAccess_eq_some_iff s a rest).2 ⟨hhost, .inl hcmd⟩]
  exact if_neg (by rw [hidle]; exact Bool.false_ne_true)

/-- Settles O6: the write starts the command; what the start leaves is said of `startCommand`. -/
theorem cmdWriteStartsTheCommand : Obligations.CmdWriteStartsTheCommand := by
  intro s v rest hwf hcmd hidle hhost hv
  exact ⟨_, step_of_cmdWrite hwf hcmd hidle hhost hv, rfl, flag_startCommand _ .busy _, flag_startCommand _ .done _,
    flagsKeptBut_startCommand _ { s with host := rest }, rfl, rfl, rfl, rfl, keptBut_startCommand _ rest s⟩

/-- Settles O16: there is no access and no command, so the move is none. -/
theorem idleBlockDoesNothing : Obligations.IdleBlockDoesNothing := by
  intro s hwf hcmd hhost
  rw [step_of_wf hwf, move, (nextAccess_eq_none_iff s).2 (.inl hhost), hcmd]

/-! ### CONFIG -/

/-- R37: all six VALID bits cleared. -/
theorem validBit_clearValid_all (s : State) (v : ValidBit) : validBit (clearValid ValidBit.all s) v = false := by
  rw [validBit_clearValid, decide_eq_true v.mem_all, Bool.not_true, Bool.and_false]

/-- R34, R37: what a write of CONFIG while idle leaves: the word under its mask, VALID kept or cleared as FAMILY is kept
or not, and every other part. -/
theorem writeConfig_frame (w : Word) (rest : List HostAccess) (s : State) :
    let t := writeConfig w { s with host := rest }
    t.config = w &&& configMask ∧ t.status = s.status ∧ t.cmd = s.cmd ∧
      (familyField t.config = familyField s.config → t.valid = s.valid) ∧
      (familyField t.config ≠ familyField s.config → (∀ b, validBit t b = false) ∧ t.valid >>> 6 = s.valid >>> 6) ∧
      t.host = rest ∧ t.cfg = s.cfg ∧ t.era = s.era ∧ KeptBut [.model, .config] s t := by
  intro t
  have ht : t = _ := writeConfig_eq w { s with host := rest }
  refine ⟨by rw [ht], by rw [ht], by rw [ht], fun hsame => ?kept, fun hchanged => ?cleared, by rw [ht], by rw [ht],
    by rw [ht], fun p hp => ?parts⟩
  case kept =>
    rw [ht] at hsame ⊢
    exact if_pos hsame
  case cleared =>
    have hvalid : t.valid = (clearValid ValidBit.all s).valid := by
      rw [ht] at hchanged ⊢
      exact if_neg hchanged
    exact ⟨fun b => by rw [validBit, hvalid]; exact validBit_clearValid_all s b, by rw [hvalid, reserved_clearValid]⟩
  case parts =>
    have hsame : PartKept p s s := partKept_refl p s
    rw [ht]
    cases p
    case model => exact absurd hp (by decide)
    case config => exact absurd hp (by decide)
    all_goals exact hsame

/-- R34: the reserved bits of a stored CONFIG word are 0. -/
theorem reserved_stored (w : Word) : (w &&& configMask) >>> 7 = 0 := by
  have hmask : configMask >>> 7 = 0#32 := by decide
  rw [BitVec.ushiftRight_and_distrib, hmask, BitVec.and_zero]
  rfl

/-- R34, R37: an idle access that writes the word `w` to CONFIG is a step with that frame. -/
theorem exists_step_of_configWrite {s : State} {a : HostAccess} {rest : List HostAccess} {w : Word}
    (hwf : s.cfg.wf = true) (hcmd : s.cmd = none) (hidle : flag s .busy = false) (hhost : s.host = a :: rest)
    (hwrite : idleAccess a rest s = .next (writeConfig w { s with host := rest })) :
    ∃ t, step s = .next t ∧ t.config = w &&& configMask ∧ t.config >>> 7 = 0 ∧ t.status = s.status ∧ t.cmd = none ∧
      (familyField t.config = familyField s.config → t.valid = s.valid) ∧
      (familyField t.config ≠ familyField s.config → (∀ b, validBit t b = false) ∧ t.valid >>> 6 = s.valid >>> 6) ∧
      t.host = rest ∧ t.cfg = s.cfg ∧ t.era = s.era ∧ KeptBut [.model, .config] s t := by
  obtain ⟨hconfig, hstatus, hcmd', hframe⟩ := writeConfig_frame w rest s
  exact ⟨_, (step_of_idle hwf hcmd hidle hhost).trans hwrite, hconfig, by rw [hconfig, reserved_stored], hstatus,
    hcmd'.trans hcmd, hframe⟩

/-- Settles O10: the access is a write of CONFIG with a value that fits. -/
theorem configWriteStoresAndGuardsFamily : Obligations.ConfigWriteStoresAndGuardsFamily := by
  intro s v rest hwf hcmd hidle hhost hv
  obtain ⟨t, hstep, hconfig, _, hframe⟩ :=
    exists_step_of_configWrite (w := v.setWidth 32) hwf hcmd hidle hhost (if_pos hv)
  exact ⟨t, hstep, hconfig, hframe⟩

section
variable {w mask put : Word} {lo len : Nat}

/-- R34: a field of CONFIG outside the mask of the write keeps its bits. -/
theorem field_stored_kept (hin : lo + len < 32) (hmask : mask.extractLsb' lo len = 0#len)
    (hput : put.extractLsb' lo len = 0#len) (hstored : configMask.extractLsb' lo len = BitVec.allOnes len) :
    (((w &&& ~~~mask) ||| put) &&& configMask).extractLsb' lo len = w.extractLsb' lo len := by
  rw [BitVec.extractLsb'_and, BitVec.extractLsb'_or, BitVec.extractLsb'_and, BitVec.extractLsb'_not_of_lt hin, hmask,
    hput, hstored, BitVec.not_zero, BitVec.and_allOnes, BitVec.or_zero, BitVec.and_allOnes]

/-- R34: the field of CONFIG under the mask of the write takes the bits that are put. -/
theorem field_stored_put (hin : lo + len < 32) (hmask : mask.extractLsb' lo len = BitVec.allOnes len)
    (hstored : configMask.extractLsb' lo len = BitVec.allOnes len) :
    (((w &&& ~~~mask) ||| put) &&& configMask).extractLsb' lo len = put.extractLsb' lo len := by
  rw [BitVec.extractLsb'_and, BitVec.extractLsb'_or, BitVec.extractLsb'_and, BitVec.extractLsb'_not_of_lt hin, hmask,
    hstored, BitVec.not_allOnes, BitVec.and_zero, BitVec.zero_or, BitVec.and_allOnes]

end

/-! The bits each field write puts (R34): its own field holds the value, the others 0. -/

theorem family_bits : ∀ v : BitVec 2, (v.setWidth 32 : Word).extractLsb' 0 2 = v ∧
    (v.setWidth 32 : Word).extractLsb' 2 1 = 0#1 ∧ (v.setWidth 32 : Word).extractLsb' 3 4 = 0#4 := by decide

theorem passdir_bits : ∀ v : BitVec 1, (v.setWidth 32 <<< 2 : Word).extractLsb' 0 2 = 0#2 ∧
    (v.setWidth 32 <<< 2 : Word).extractLsb' 2 1 = v ∧ (v.setWidth 32 <<< 2 : Word).extractLsb' 3 4 = 0#4 := by decide

theorem channel_bits : ∀ v : BitVec 4, (v.setWidth 32 <<< 3 : Word).extractLsb' 0 2 = 0#2 ∧
    (v.setWidth 32 <<< 3 : Word).extractLsb' 2 1 = 0#1 ∧ (v.setWidth 32 <<< 3 : Word).extractLsb' 3 4 = v := by decide

/-- Settles O11: each write stores the CONFIG word with its own field replaced. -/
theorem configFieldWriteKeepsTheOthers : Obligations.ConfigFieldWriteKeepsTheOthers := by
  intro s rest hwf hcmd hidle
  refine ⟨fun v hhost => ?family, fun v hhost => ?passdir, fun v hhost => ?channel⟩
  case family =>
    obtain ⟨hputs, hnoPassdir, hnoChannel⟩ := family_bits v
    obtain ⟨t, hstep, hconfig, hreserved, hstatus, hcmd', hkept, hcleared, hframe⟩ :=
      exists_step_of_configWrite hwf hcmd hidle hhost rfl
    have hfamily : familyField t.config = v := by
      rw [familyField, hconfig, field_stored_put (by decide) (by decide) (by decide), hputs]
    have hpassdir : passdir t = passdir s := by
      rw [passdir, hconfig, field_stored_kept (by decide) (by decide) hnoPassdir (by decide), passdir]
    have hchannel : channel t = channel s := by
      rw [channel, hconfig, field_stored_kept (by decide) (by decide) hnoChannel (by decide), channel]
    rw [hfamily] at hkept hcleared
    exact ⟨t, hstep, hfamily, hpassdir, hchannel, hreserved, hkept, hcleared, hstatus, hcmd', hframe⟩
  case passdir =>
    obtain ⟨hnoFamily, hputs, hnoChannel⟩ := passdir_bits v
    obtain ⟨t, hstep, hconfig, hreserved, hstatus, hcmd', hkept, _, hframe⟩ :=
      exists_step_of_configWrite hwf hcmd hidle hhost rfl
    have hfamily : familyField t.config = familyField s.config := by
      rw [familyField, hconfig, field_stored_kept (by decide) (by decide) hnoFamily (by decide), familyField]
    have hpassdir : passdir t = v := by
      rw [passdir, hconfig, field_stored_put (by decide) (by decide) (by decide), hputs]
    have hchannel : channel t = channel s := by
      rw [channel, hconfig, field_stored_kept (by decide) (by decide) hnoChannel (by decide), channel]
    exact ⟨t, hstep, hfamily, hpassdir, hchannel, hreserved, hkept hfamily, hstatus, hcmd', hframe⟩
  case channel =>
    obtain ⟨hnoFamily, hnoPassdir, hputs⟩ := channel_bits v
    obtain ⟨t, hstep, hconfig, hreserved, hstatus, hcmd', hkept, _, hframe⟩ :=
      exists_step_of_configWrite hwf hcmd hidle hhost rfl
    have hfamily : familyField t.config = familyField s.config := by
      rw [familyField, hconfig, field_stored_kept (by decide) (by decide) hnoFamily (by decide), familyField]
    have hpassdir : passdir t = passdir s := by
      rw [passdir, hconfig, field_stored_kept (by decide) (by decide) hnoPassdir (by decide), passdir]
    have hchannel : channel t = v.toNat := by
      rw [channel, hconfig, field_stored_put (by decide) (by decide) (by decide), hputs]
    exact ⟨t, hstep, hfamily, hpassdir, hchannel, hreserved, hkept hfamily, hstatus, hcmd', hframe⟩

/-! ### The other writes -/

/-- Settles O12: CAP_LEN is written with VALID cleared, a byte of CAP without. -/
theorem capLenWriteClearsValid : Obligations.CapLenWriteClearsValid := by
  refine ⟨fun s v rest hwf hcmd hidle hhost => ?length, fun s k v rest hwf hcmd hidle hhost => ?byte⟩
  case length =>
    refine ⟨_, step_of_idle hwf hcmd hidle hhost, rfl, fun _ => rfl, validBit_clearValid_all s,
      reserved_clearValid _ s, rfl, hcmd, rfl, rfl, rfl, fun p hp => ?_⟩
    have hsame : PartKept p s s := partKept_refl p s
    cases p
    case model => exact absurd hp (by decide)
    case cap => exact absurd hp (by decide)
    all_goals exact hsame
  case byte =>
    refine ⟨_, step_of_idle hwf hcmd hidle hhost, ?written, fun j hj => ?others, rfl, rfl, rfl, hcmd, rfl, rfl, rfl,
      fun p hp => ?parts⟩
    case written => rw [capByte, Memory.read_write_same, Option.getD_some]
    case others => rw [capByte, Memory.read_write_other _ _ hj]; rfl
    case parts =>
      have hsame : PartKept p s s := partKept_refl p s
      cases p
      case model => exact absurd hp (by decide)
      case cap => exact absurd hp (by decide)
      all_goals exact hsame

/-- Settles O13: each access stores its own register or element. -/
theorem lineAndArgumentWritesStore : Obligations.LineAndArgumentWritesStore := by
  intro s rest hwf hcmd hidle
  refine ⟨fun v hhost => step_of_idle hwf hcmd hidle hhost, fun v hhost => step_of_idle hwf hcmd hidle hhost,
    fun v hhost => step_of_idle hwf hcmd hidle hhost, fun v hhost => step_of_idle hwf hcmd hidle hhost,
    fun k v hhost => ?element⟩
  case element =>
    refine ⟨_, step_of_idle hwf hcmd hidle hhost, ?written, fun j hj => ?others, rfl, rfl, rfl, hcmd, rfl, rfl, rfl,
      fun p hp => ?parts⟩
    case written => rw [lineElem, Memory.read_write_same, Option.getD_some]
    case others => rw [lineElem, Memory.read_write_other _ _ hj]; rfl
    case parts =>
      have hsame : PartKept p s s := partKept_refl p s
      cases p
      case model => exact absurd hp (by decide)
      case line => exact absurd hp (by decide)
      all_goals exact hsame

/-- R36 to R38, V4: a write of a read-only register stores nothing. -/
theorem writeRegister_readOnly {n : Nat} (hn : n ∈ [0x01, 0x03, 0x05, 0x06, 0x07, 0x08, 0x09, 0x0B, 0x0C]) (v : Dword)
    (s : State) : writeRegister n v s = .next s := by
  simp only [List.mem_cons, List.not_mem_nil, or_false] at hn
  rcases hn with rfl | rfl | rfl | rfl | rfl | rfl | rfl | rfl | rfl <;> rfl

/-- A write of a number that no register has is a fault (log 11). -/
theorem writeRegister_absent {n : Nat} (hn : 0x0F < n) (v : Dword) (s : State) :
    writeRegister n v s = .fault (.noSuchRegister n) := by
  unfold writeRegister
  split
  case h_8 => exact if_neg (Nat.not_le.2 hn)
  all_goals exact absurd hn (by decide)

/-- Settles O14: the idle access is a write of a read-only register, of an absent one, or of a value too wide. -/
theorem hostAccessesThatStoreNothing : Obligations.HostAccessesThatStoreNothing := by
  intro s n v rest hwf hcmd hidle
  refine ⟨fun hhost => ?writes, fun hhost hn => ?reads⟩
  case writes =>
    have hstep := step_of_idle hwf hcmd hidle hhost
    refine ⟨fun hn => hstep.trans (writeRegister_readOnly hn v _), fun hn => hstep.trans (writeRegister_absent hn v _),
      fun hn hv => ?command, fun hn hv => ?config⟩
    case command => subst hn; exact hstep.trans (if_neg (Nat.not_lt.2 hv))
    case config => subst hn; exact hstep.trans (if_neg (Nat.not_lt.2 hv))
  case reads => exact (step_of_idle hwf hcmd hidle hhost).trans (if_neg (Nat.not_le.2 hn))

/-! ### Reads -/

/-- A register under the mask of its low `n` bits, as the host reads it. -/
theorem read_masked (w : Word) {mask : Word} {n : Nat} (hmask : mask.toNat = 2 ^ n - 1) :
    (w &&& mask).setWidth 64 = BitVec.ofNat 64 (w.toNat % 2 ^ n) := by
  apply BitVec.eq_of_toNat_eq
  rw [BitVec.toNat_setWidth, BitVec.toNat_and, hmask, Nat.and_two_pow_sub_one_eq_mod, BitVec.toNat_ofNat]

section
variable {s : State}

/-- R36, R40: STATUS can be read at any time. -/
theorem hostReadRegister_status (s : State) :
    hostReadRegister s 0x01 = some (BitVec.ofNat 64 (s.status.toNat % 2 ^ 7)) := by
  have hstatus : hostReadRegister s 0x01 = some ((s.status &&& statusMask).setWidth 64) := if_neg fun ⟨_, h⟩ => h rfl
  rw [hstatus, read_masked _ (n := 7) rfl]

theorem hostReadElement_idle (hidle : flag s .busy = false) (b : BufId) (k : Nat) :
    hostReadElement s b k = some (bufferElem s b k) := by
  rw [hostReadElement, hidle]
  rfl

theorem hostReadBuffer_idle (hidle : flag s .busy = false) (b : BufId) :
    hostReadBuffer s b = some ((List.range (bufferLength s b)).map (bufferElem s b)) := by
  rw [hostReadBuffer, hidle]
  rfl

/-- R66: with an access of the host next, the host is shown what that access reads. -/
theorem observed_of_access {a : HostAccess} {rest : List HostAccess} (hhost : s.host = a :: rest)
    (hmade : s.cmd = none ∨ madeWhileBusy a = true) : observed s = accessReads s a := by
  rw [observed, (nextAccess_eq_some_iff s a rest).2 ⟨hhost, hmade⟩]

/-- R40, R66: reading STATUS, at any time, changes nothing but the host's list. -/
theorem step_of_statusRead {rest : List HostAccess} (hwf : s.cfg.wf = true) (hhost : s.host = .readReg 0x01 :: rest) :
    step s = .next { s with host := rest } := by
  rw [step_of_wf hwf, move, (nextAccess_eq_some_iff s _ rest).2 ⟨hhost, .inr rfl⟩]
  show hostAccess (.readReg 0x01) rest s = _
  unfold hostAccess
  split <;> rfl

end

/-- Settles O15: the register's or element's own read; and the access that makes it has no effect. -/
theorem hostReadsSeeWhatIsStored : Obligations.HostReadsSeeWhatIsStored := by
  intro s
  refine ⟨hostReadRegister_status s, fun hidle => ?idle, fun hbusy => ?busy, fun rest hwf hhost => ?statusRead,
    fun hwf hcmd hidle => ?reads⟩
  case idle =>
    have hfree : ∀ n, ¬ (flag s .busy = true ∧ n ≠ 0x01) := fun n ⟨h, _⟩ => Bool.false_ne_true (hidle.symm.trans h)
    have hconfig : hostReadRegister s 0x02 = some ((s.config &&& configMask).setWidth 64) := if_neg (hfree _)
    have hvalid : hostReadRegister s 0x03 = some ((s.valid &&& validMask).setWidth 64) := if_neg (hfree _)
    rw [read_masked _ (n := 7) rfl] at hconfig
    rw [read_masked _ (n := 6) rfl] at hvalid
    have helem := hostReadElement_idle hidle
    exact ⟨if_neg (hfree _), hconfig, hvalid, if_neg (hfree _), if_neg (hfree _), if_neg (hfree _), if_neg (hfree _),
      if_neg (hfree _), if_neg (hfree _), if_neg (hfree _), if_neg (hfree _), if_neg (hfree _), if_neg (hfree _),
      if_neg (hfree _), if_neg (hfree _), fun k => ⟨helem .cap k, helem .ldb k, helem .fs k, helem .drt k,
        helem .dmx k, helem .bnd k, helem .spn k, helem .pix k, helem .chi k, helem .line k⟩⟩
  case busy =>
    exact ⟨fun n hn => if_pos ⟨hbusy, hn⟩, fun b k => by rw [hostReadElement, hbusy]; rfl,
      fun b => by rw [hostReadBuffer, hbusy]; rfl⟩
  case statusRead =>
    refine ⟨?_, step_of_statusRead hwf hhost⟩
    rw [observed_of_access hhost (.inr rfl), accessReads, hostReadRegister_status]
    rfl
  case reads =>
    refine ⟨fun n rest hn hhost => ?register, fun b rest hhost => ?buffer⟩
    case register =>
      exact ⟨observed_of_access hhost (.inl hcmd), (step_of_idle hwf hcmd hidle hhost).trans (if_pos hn)⟩
    case buffer =>
      refine ⟨observed_of_access hhost (.inl hcmd), step_of_idle hwf hcmd hidle hhost, _,
        hostReadBuffer_idle hidle b, by rw [List.length_map, List.length_range], fun k hk => ?_⟩
      rw [hostReadElement_idle hidle, List.getElem?_map, List.getElem?_range hk, Option.map_some]

end Sys2Proof.Machine
end

section
/-! PROOF. What one step can do, said once: wait, make one of the host's writes, run the held command, or refuse the held
code (O50, O56; R72, R91). -/
namespace Sys2Proof.Machine

/-- What an access of the host can leave (R34 to R40): its list moved on, a command started, or one object written. -/
inductive HostStep (s : State) : State → Prop where
  /-- A wait, a read, or a write that stores nothing. -/
  | passes (host : List HostAccess) : HostStep s { s with host := host }
  | starts (code : Byte) (host : List HostAccess) : HostStep s (startCommand code { s with host := host })
  | writesConfig (w : Word) (host : List HostAccess) : HostStep s (writeConfig w { s with host := host })
  | writesCapLen (n : Nat) (host : List HostAccess) : HostStep s (writeCapLen n { s with host := host })
  /-- LINE_COUNT or an argument register. -/
  | writesNumber (lineCount argBase argRow argCount : Nat) (host : List HostAccess) :
      HostStep s { s with host := host, lineCount := lineCount, argBase := argBase, argRow := argRow, argCount := argCount }
  | writesCap (k : Nat) (v : Byte) (host : List HostAccess) :
      HostStep s { s with host := host, cap := Memory.write s.cap k v }
  | writesLine (k v : Nat) (host : List HostAccess) :
      HostStep s { s with host := host, line := Memory.write s.line k v }

/-- Whatever the access, it is one of these. -/
theorem hostStep_of_hostAccess {a : HostAccess} {rest : List HostAccess} {s t : State}
    (h : hostAccess a rest s = .next t) : HostStep s t := by
  rcases hostAccess_next h with rfl | rfl | ⟨_, hwrite⟩
  · exact .passes t.host
  · exact .passes rest
  · rcases hwrite with ⟨n, v, _, hreg⟩ | ⟨v, _, rfl⟩ | ⟨v, _, rfl⟩ | ⟨v, _, rfl⟩ | ⟨k, v, _, rfl⟩ | ⟨k, v, _, rfl⟩
    · rcases writeRegister_next hreg with ⟨_, rfl⟩ | ⟨_, rfl⟩ | ⟨_, rfl⟩ | ⟨_, rfl⟩ | ⟨_, rfl⟩ | ⟨_, rfl⟩ | ⟨_, rfl⟩ | rfl
      · exact .starts _ rest
      · exact .writesConfig _ rest
      · exact .writesCapLen _ rest
      · exact .writesNumber _ _ _ _ rest
      · exact .writesNumber _ _ _ _ rest
      · exact .writesNumber _ _ _ _ rest
      · exact .writesNumber _ _ _ _ rest
      · exact .passes rest
    · exact .writesConfig _ rest
    · exact .writesConfig _ rest
    · exact .writesConfig _ rest
    · exact .writesCap k v rest
    · exact .writesLine k _ rest

/-- What a step that answers a next state has done (R72, R91, R94). -/
theorem step_next_cases {s t : State} (h : step s = .next t) :
    HostStep s t ∨ (∃ c i, s.cmd = some c ∧ (c, i) ∈ commandMap ∧ exec i s = .next t) ∨ t = refuse .errCmd s := by
  obtain ⟨_, hmove⟩ := step_next h
  rcases move_cases s with ⟨a, rest, _, hm⟩ | ⟨c, _, hcmd, hm⟩ | ⟨_, _, hm⟩
  · exact .inl (hostStep_of_hostAccess (hm.symm.trans hmove))
  · rcases runHeld_cases c s with ⟨i, hcode, hrun⟩ | ⟨_, _, hrun⟩
    · exact .inr (.inl ⟨c, i, hcmd, (decodeCommand_eq_ok_iff c i).1 hcode, (hm.trans hrun).symm.trans hmove⟩)
    · exact .inr (.inr (Host.Outcome.next.inj (hmove.symm.trans (hm.trans hrun))))
  · obtain rfl : s = t := Host.Outcome.next.inj (hm.symm.trans hmove)
    exact .inl (.passes s.host)

/-- The parts an access of the host may write. -/
def hostParts : List Part := [.model, .config, .cap, .line, .args]

theorem status_writeConfig (w : Word) (s : State) : (writeConfig w s).status = s.status := by rw [writeConfig_eq]

/-- An access of the host writes CMD, STATUS, VALID and the host's own parts alone. -/
theorem keptBut_of_hostStep {s t : State} (h : HostStep s t) : KeptBut hostParts s t := by
  intro p hp
  have hsame : PartKept p s s := partKept_refl p s
  cases h with
  | writesConfig w host =>
    rw [writeConfig_eq]
    cases p
    case model | config | cap | line | args => exact absurd hp (by decide)
    all_goals exact hsame
  | _ =>
    cases p
    case model | config | cap | line | args => exact absurd hp (by decide)
    all_goals exact hsame

/-- R35, R91: an access of the host writes BUSY and DONE at most. -/
theorem flagsKeptBut_of_hostStep {s t : State} (h : HostStep s t) : FlagsKeptBut [.busy, .done] s t := by
  have hstatus : ∀ u : State, u.status = s.status → FlagsKeptBut [.busy, .done] s u := fun u hu =>
    flagsKeptBut_mono (List.nil_subset _) (flagsKeptBut_of_status_eq hu)
  cases h with
  | starts code host => exact flagsKeptBut_startCommand code { s with host := host }
  | writesConfig w host => exact hstatus _ (status_writeConfig w { s with host := host })
  | _ => exact hstatus _ rfl

/-- Settles O50: the host's accesses and the refusals keep the error flags, and so does every command but RESET. -/
theorem onlyResetClearsErrorFlags : Obligations.OnlyResetClearsErrorFlags := by
  intro s t e hstep hset hclear
  have hlost : flag t e.flag ≠ true := Bool.eq_false_iff.1 hclear
  rcases step_next_cases hstep with hhost | ⟨c, i, hcmd, hmem, hexec⟩ | rfl
  · exact absurd ((errFlag_of_flagsKeptBut (by simp) (flagsKeptBut_of_hostStep hhost) e).trans hset) hlost
  · by_cases hi : i = .reset
    · subst hi
      rw [hcmd, List.singleton_inj.1 ((mem_commandMap_iff c .reset).1 hmem)]
    · exact absurd (exec_keeps_errFlag hi hexec hset) hlost
  · exact absurd (errFlag_refuse .errCmd hset) hlost

/-- The codes of the commands that write a part: those whose product it is (R22 to R33), and RESET. -/
def writerCodes (p : Part) : List Byte :=
  (commandMap.filter fun e => decide (p ∈ writtenParts e.2)).map Prod.fst ++ [0x01#8]

/-- A part that no access of the host writes changes over a step only by one of the commands that write it. -/
theorem writer_of_changed {s t : State} {p : Part} (hstep : step s = .next t) (hp : p ∉ hostParts)
    (hchanged : ¬ PartKept p s t) : ∃ c ∈ writerCodes p, s.cmd = some c := by
  rcases step_next_cases hstep with hhost | ⟨c, i, hcmd, hmem, hexec⟩ | rfl
  · exact absurd (keptBut_of_hostStep hhost p hp) hchanged
  · refine ⟨c, List.mem_append.2 ?_, hcmd⟩
    by_cases hi : i = .reset
    · subst hi
      exact .inr (List.mem_singleton.2 (List.singleton_inj.1 ((mem_commandMap_iff c .reset).1 hmem)).symm)
    · have hwrites : p ∈ writtenParts i := by
        by_contra hpart
        exact hchanged (exec_keptBut hi hexec p hpart)
      exact .inl (List.mem_map.2 ⟨(c, i), List.mem_filter.2 ⟨hmem, decide_eq_true hwrites⟩, rfl⟩)
  · exact absurd (keptBut_refuse .errCmd (keptBut_refl [] s) p List.not_mem_nil) hchanged

/-- Settles O56: the codes that write each product are the ones listed. -/
theorem productsHaveTheirWriters : Obligations.ProductsHaveTheirWriters := by
  intro s t hstep
  have hwriter : ∀ p, p ∉ hostParts → ¬ PartKept p s t → ∀ codes, writerCodes p = codes → ∃ c ∈ codes, s.cmd = some c :=
    fun p hp hchanged codes hcodes => hcodes ▸ writer_of_changed hstep hp hchanged
  refine ⟨fun h => ?_, fun h => ?_, fun h => ?_, fun h => ?_, fun h => ?_, fun h => ?_, fun h => ?_, fun h => ?_,
    fun h => ?_⟩
  · simpa using hwriter _ (by decide) h [0x10#8, 0x01#8] (by decide)
  · simpa using hwriter _ (by decide) h [0x20#8, 0x01#8] (by decide)
  · simpa using hwriter _ (by decide) h [0x02#8, 0x01#8] (by decide)
  · simpa using hwriter _ (by decide) h [0x30#8, 0x31#8, 0x01#8] (by decide)
  · simpa using hwriter _ (by decide) h [0x30#8, 0x31#8, 0x01#8] (by decide)
  · simpa using hwriter _ (by decide) h [0x32#8, 0x01#8] (by decide)
  · simpa using hwriter _ (by decide) h [0x40#8, 0x41#8, 0x01#8] (by decide)
  · simpa using hwriter _ (by decide) h [0x42#8, 0x43#8, 0x01#8] (by decide)
  · simpa using hwriter _ (by decide) h [0x20#8, 0x01#8] (by decide)

end Sys2Proof.Machine
end

section
/-! PROOF. While V_FS stands, every FrameStart has a whole frame in the bit source (O59): what makes V_FS stand is a pass
over the source, and whatever changes the source, its family or FS clears V_FS or is such a pass (R24, R37, R150). -/
namespace Sys2Proof.Machine

section
variable {s t : State}

theorem frameStartsWhole_of_invalid (h : validBit t .fs = false) : FrameStartsWhole t :=
  fun hset => absurd (h.symm.trans hset) Bool.false_ne_true

/-- R23: the bit source is CAP or LDB, so their lengths give its length. -/
theorem srcLen_of_kept (hcap : t.capLen = s.capLen) (hldb : t.ldbLen = s.ldbLen) (f : Family) :
    srcLen t f = srcLen s f := by
  cases f
  · exact hcap
  · exact hldb
  · exact hcap

/-- The statement reads V_FS, FAMILY, the family constants, the length of the source and FS. -/
theorem frameStartsWhole_of_kept (h : FrameStartsWhole s) (hvalid : validBit t .fs = validBit s .fs)
    (hfam : family t = family s) (hcfg : t.cfg = s.cfg) (hcap : t.capLen = s.capLen) (hldb : t.ldbLen = s.ldbLen)
    (hfs : PartKept .fs s t) : FrameStartsWhole t := by
  obtain ⟨hcount, helem⟩ := hfs
  intro hset f hf k hk
  rw [helem, hcfg, srcLen_of_kept hcap hldb]
  simp only [helem]
  exact h (hvalid.symm.trans hset) f (hfam.symm.trans hf) k (hcount ▸ hk)

/-- The end of a command and a refusal change none of these. -/
theorem frameStartsWhole_endCommand (h : FrameStartsWhole s) : FrameStartsWhole (endCommand s) :=
  frameStartsWhole_of_kept h rfl rfl rfl rfl rfl ⟨rfl, fun _ => rfl⟩

theorem frameStartsWhole_refuse (h : FrameStartsWhole s) (e : ErrFlag) : FrameStartsWhole (refuse e s) :=
  frameStartsWhole_of_kept h rfl rfl rfl rfl rfl ⟨rfl, fun _ => rfl⟩

/-- R34, R37, R38: the host clears V_FS where it writes CAP_LEN or changes FAMILY, and changes none of these elsewhere. -/
theorem frameStartsWhole_of_hostStep (h : FrameStartsWhole s) (hhost : HostStep s t) : FrameStartsWhole t := by
  cases hhost with
  | passes host => exact frameStartsWhole_of_kept h rfl rfl rfl rfl rfl ⟨rfl, fun _ => rfl⟩
  | starts code host => exact frameStartsWhole_of_kept h rfl rfl rfl rfl rfl ⟨rfl, fun _ => rfl⟩
  | writesCapLen n host => exact frameStartsWhole_of_invalid (validBit_clearValid_all _ .fs)
  | writesNumber => exact frameStartsWhole_of_kept h rfl rfl rfl rfl rfl ⟨rfl, fun _ => rfl⟩
  | writesCap k v host => exact frameStartsWhole_of_kept h rfl rfl rfl rfl rfl ⟨rfl, fun _ => rfl⟩
  | writesLine k v host => exact frameStartsWhole_of_kept h rfl rfl rfl rfl rfl ⟨rfl, fun _ => rfl⟩
  | writesConfig w host =>
    obtain ⟨_, _, _, hkept, hcleared, _, hcfg, _, hparts⟩ := writeConfig_frame w host s
    generalize writeConfig w { s with host := host } = t at hkept hcleared hcfg hparts
    by_cases hsame : familyField t.config = familyField s.config
    · obtain ⟨hcap, _⟩ := hparts .cap (by decide)
      obtain ⟨hldb, _⟩ := hparts .ldb (by decide)
      have hvalid : validBit t .fs = validBit s .fs := by rw [validBit, hkept hsame, validBit]
      have hfam : family t = family s := by rw [family, hsame, family]
      exact frameStartsWhole_of_kept h hvalid hfam hcfg hcap hldb (hparts .fs (by decide))
    · obtain ⟨hbits, _⟩ := hcleared hsame
      exact frameStartsWhole_of_invalid (hbits .fs)

/-- R150, R153: a state whose FS is what a pass over its own source found. -/
theorem frameStartsWhole_of_pass {f : Family} (hwf : s.cfg.wf = true) (hfam : family t = some f) (hcfg : t.cfg = s.cfg)
    (hlen : srcLen t f = srcLen s f) (hcount : t.fsCount = (sourcePass s f).found.length)
    (hfound : ∀ k, k < (sourcePass s f).found.length → (sourcePass s f).found[k]? = some (fsElem t k)) :
    FrameStartsWhole t := by
  obtain ⟨hunit, hstride, _⟩ := wf_scan_steps hwf f
  obtain ⟨hascends, hwhole, _⟩ := passEndsAndAscends (s.cfg.family f) (sourceDistance s f) (8 * srcLen s f) hunit hstride
  rw [← sourcePass] at hascends hwhole
  intro _ g hg k hk
  obtain rfl : f = g := Option.some.inj (hfam.symm.trans hg)
  rw [hcount] at hk
  rw [hcfg, hlen]
  refine ⟨hwhole _ (List.mem_of_getElem? (hfound k hk)), fun j hj => ?_⟩
  have hlt := List.pairwise_iff_getElem.1 hascends j k (by omega) hk hj
  obtain ⟨_, hj'⟩ := List.getElem?_eq_some_iff.1 (hfound j (by omega))
  obtain ⟨_, hk'⟩ := List.getElem?_eq_some_iff.1 (hfound k hk)
  rwa [hj', hk'] at hlt

/-- R152: SYNC puts the pass into FS and leaves its source as it is. -/
theorem frameStartsWhole_syncResultIn {f : Family} (hwf : s.cfg.wf = true) (hfam : family s = some f) :
    FrameStartsWhole (syncResultIn f s) := by
  obtain ⟨hcount, _⟩ := syncResultIn_reads f s
  have hfound := fun k => fsElem_syncResultIn f s (k := k)
  have hkept := keptBut_syncResultIn f s
  generalize syncResultIn f s = t at hcount hfound hkept
  obtain ⟨hcfg, _⟩ := hkept .model (by decide)
  have hconfig : t.config = s.config := hkept .config (by decide)
  obtain ⟨hcap, _⟩ := hkept .cap (by decide)
  obtain ⟨hldb, _⟩ := hkept .ldb (by decide)
  have hfam' : family t = some f := by rw [family, hconfig]; exact hfam
  exact frameStartsWhole_of_pass hwf hfam' hcfg (srcLen_of_kept hcap hldb f) hcount hfound

/-- R37: a command that writes neither V_FS nor FS nor the bit source. -/
theorem frameStartsWhole_resultOf_other (h : FrameStartsWhole s) {i : Instr} (hi : i ∉ [Instr.reset, .ldec, .sync]) :
    FrameStartsWhole (resultOf i s) := by
  simp only [List.mem_cons, List.not_mem_nil, or_false, not_or] at hi
  obtain ⟨hreset, hldec, hsync⟩ := hi
  have hwritten : .fs ∉ writtenValid i ∧ ∀ p ∈ [Part.model, .config, .cap, .ldb, .fs], p ∉ writtenParts i := by
    cases i with
    | reset => exact absurd rfl hreset
    | ldec => exact absurd rfl hldec
    | sync => exact absurd rfl hsync
    | _ => decide
  obtain ⟨hnotValid, hnotPart⟩ := hwritten
  obtain ⟨hbits, _⟩ := validKeptBut_resultOf s hreset
  have hkept := keptBut_resultOf s hreset
  obtain ⟨hcfg, _⟩ := hkept .model (hnotPart _ (by decide))
  have hconfig : (resultOf i s).config = s.config := hkept .config (hnotPart _ (by decide))
  obtain ⟨hcap, _⟩ := hkept .cap (hnotPart _ (by decide))
  obtain ⟨hldb, _⟩ := hkept .ldb (hnotPart _ (by decide))
  exact frameStartsWhole_of_kept h (hbits .fs hnotValid) (by rw [family, hconfig, family]) hcfg hcap hldb
    (hkept .fs (hnotPart _ (by decide)))

theorem validBit_fs_resetResult (s : State) : validBit (resetResult s) .fs = false := by
  have hvalid : (resetResult s).valid = 0#32 := rfl
  rw [validBit, hvalid]
  exact BitVec.getLsbD_zero

/-- R24, R37: the result of a command that passes its checks. -/
theorem frameStartsWhole_resultOf (hwf : s.cfg.wf = true) (h : FrameStartsWhole s) {i : Instr}
    (hpassed : refusalOf i s = none) : FrameStartsWhole (resultOf i s) := by
  by_cases hi : i ∈ [Instr.reset, .ldec, .sync]
  · simp only [List.mem_cons, List.not_mem_nil, or_false] at hi
    rcases hi with rfl | rfl | rfl
    · exact frameStartsWhole_of_invalid (validBit_fs_resetResult s)
    · exact frameStartsWhole_of_invalid (validBit_ldecResult s .fs)
    · obtain ⟨f, hfam⟩ := exists_family_of_passed rfl hpassed
      rw [show resultOf .sync s = syncResultIn f s from syncResult_eq hfam]
      exact frameStartsWhole_syncResultIn hwf hfam
  · exact frameStartsWhole_resultOf_other h hi

end

/-- Settles O59: an access of the host, a refusal and the result of a command each keep it. -/
theorem everyStepKeepsFrameStartsWhole : Obligations.EveryStepKeepsFrameStartsWhole := by
  intro s t h hstep
  obtain ⟨hwf, _⟩ := step_next hstep
  rcases step_next_cases hstep with hhost | ⟨_, i, _, _, hexec⟩ | rfl
  · exact frameStartsWhole_of_hostStep h hhost
  · rcases (exec_next_iff i s t).1 hexec with ⟨e, _, rfl⟩ | ⟨hpassed, rfl⟩
    · exact frameStartsWhole_refuse h e
    · exact frameStartsWhole_endCommand (frameStartsWhole_resultOf hwf h hpassed)
  · exact frameStartsWhole_refuse h .errCmd

end Sys2Proof.Machine
end

section
/-! PROOF. The invariant of the machine (O58, O18, O60): what it says of the registers and buffers is kept by every update a
command or an access is made of, and the start and the end of a command set BUSY as CMD (R25, R32, R36, R42, R67). -/
namespace Sys2Proof.Machine

/-- The invariant without BUSY: each register and buffer by itself, in the order of the state. -/
structure Contents (s : State) : Prop where
  status : s.status >>> 7 = 0
  config : s.config >>> 7 = 0
  valid : s.valid >>> 6 = 0
  capWf : Memory.wf s.cap = true
  ldbWf : Memory.wf s.ldb = true
  fsWf : Memory.wf s.fs = true
  drtWf : Memory.wf s.drt = true
  dmxWf : Memory.wf s.dmx = true
  bndWf : Memory.wf s.bnd = true
  spnWf : Memory.wf s.spn = true
  pixWf : Memory.wf s.pix = true
  chiWf : Memory.wf s.chi = true
  lineWf : Memory.wf s.line = true
  ldb : ∀ k, k < s.ldbLen → (Memory.read s.ldb k).isSome
  fs : ∀ k, k < s.fsCount → (Memory.read s.fs k).isSome
  dmx : ∀ k, k < s.dmxLen → (Memory.read s.dmx k).isSome
  bnd : ∀ k, k < s.bndCount → (Memory.read s.bnd k).isSome
  spn : ∀ k, k < s.spnCount → (Memory.read s.spn k).isSome
  pix : ∀ k, k < s.pixLen → (Memory.read s.pix k).isSome
  table : ∀ i, i < 1024 → Memory.read s.drt i = some (tableEntry i)
  lfsr : s.lfsr = lfsrSeed
  good : s.lock.good ≤ 4

theorem memoryWf_iff (s : State) :
    memoryWf s = true ↔ Memory.wf s.cap = true ∧ Memory.wf s.ldb = true ∧ Memory.wf s.fs = true ∧
      Memory.wf s.drt = true ∧ Memory.wf s.dmx = true ∧ Memory.wf s.bnd = true ∧ Memory.wf s.spn = true ∧
      Memory.wf s.pix = true ∧ Memory.wf s.chi = true ∧ Memory.wf s.line = true := by
  simp only [memoryWf, Bool.and_eq_true, and_assoc]

/-- The invariant is that of the contents, with BUSY set exactly while a command is in progress. -/
theorem sound_iff (s : State) : Sound s ↔ Contents s ∧ flag s .busy = s.cmd.isSome := by
  have hmemory := memoryWf_iff s
  constructor
  · rintro ⟨hwf, ⟨hconfig, hstatus, hvalid⟩, ⟨htable, hlfsr⟩, hbusy, hgood, ⟨hldb, hfs, hdmx, hbnd, hspn, hpix⟩⟩
    obtain ⟨hcapWf, hldbWf, hfsWf, hdrtWf, hdmxWf, hbndWf, hspnWf, hpixWf, hchiWf, hlineWf⟩ := hmemory.1 hwf
    exact ⟨⟨hstatus, hconfig, hvalid, hcapWf, hldbWf, hfsWf, hdrtWf, hdmxWf, hbndWf, hspnWf, hpixWf, hchiWf, hlineWf,
      hldb, hfs, hdmx, hbnd, hspn, hpix, htable, hlfsr, hgood⟩, hbusy⟩
  · rintro ⟨h, hbusy⟩
    exact ⟨hmemory.2 ⟨h.capWf, h.ldbWf, h.fsWf, h.drtWf, h.dmxWf, h.bndWf, h.spnWf, h.pixWf, h.chiWf, h.lineWf⟩, ⟨h.config, h.status, h.valid⟩, ⟨h.table, h.lfsr⟩, hbusy, h.good,
      ⟨h.ldb, h.fs, h.dmx, h.bnd, h.spn, h.pix⟩⟩

/-! ### The updates of the registers -/

section
variable {s : State}

theorem Contents.setFlag (h : Contents s) (f : StatusFlag) : Contents (setFlag f s) :=
  { h with status := (reserved_setFlag f s).trans h.status }

theorem Contents.clearFlag (h : Contents s) (f : StatusFlag) : Contents (clearFlag f s) :=
  { h with status := (reserved_clearFlag f s).trans h.status }

theorem Contents.putFlag (h : Contents s) (f : StatusFlag) (b : Bool) : Contents (putFlag f b s) := by
  cases b with
  | false => exact h.clearFlag f
  | true => exact h.setFlag f

theorem Contents.setValid (h : Contents s) (v : ValidBit) : Contents (setValid v s) :=
  { h with valid := (reserved_setValid v s).trans h.valid }

theorem Contents.clearValid (h : Contents s) (vs : List ValidBit) : Contents (clearValid vs s) :=
  { h with valid := (reserved_clearValid vs s).trans h.valid }

theorem Contents.startCommand (h : Contents s) (c : Byte) : Contents (startCommand c s) :=
  { h with status := (reserved_startCommand c s).trans h.status }

theorem Contents.endCommand (h : Contents s) : Contents (endCommand s) :=
  { h with status := (reserved_endCommand s).trans h.status }

/-! ### The products stored -/

/-- Below the length of the list it is made of, every element of a buffer has been written. -/
theorem isSome_read_ofList {α : Type} {vs : List α} {n : Nat} (hn : n ≤ vs.length) :
    ∀ k, k < n → (Memory.read (Memory.ofList vs) k).isSome := by
  intro k hk
  rw [Memory.read_ofList, List.getElem?_eq_getElem (by omega)]
  rfl

theorem Contents.storeLdb (h : Contents s) (bytes : List Byte) {n : Nat} (hn : n ≤ bytes.length) :
    Contents { s with ldb := Memory.ofList bytes, ldbLen := n } :=
  { h with ldbWf := Memory.wf_ofList bytes, ldb := isSome_read_ofList hn }

theorem Contents.storePass (h : Contents s) (r : PassResult) (hgood : r.lock.good ≤ 4) :
    Contents { s with fs := Memory.ofList r.found, fsCount := r.found.length, lock := r.lock, pos := r.pos } :=
  { h with fsWf := Memory.wf_ofList r.found, fs := isSome_read_ofList le_rfl, good := hgood }

theorem Contents.storeDemux (h : Contents s) (bytes : List Byte) (boundaries : List Nat) :
    Contents { s with
      dmx := Memory.ofList bytes
      dmxLen := bytes.length
      bnd := Memory.ofList boundaries
      bndCount := boundaries.length } :=
  { h with
    dmxWf := Memory.wf_ofList bytes
    bndWf := Memory.wf_ofList boundaries
    dmx := isSome_read_ofList le_rfl
    bnd := isSome_read_ofList le_rfl }

theorem Contents.storeSpn (h : Contents s) (spans : List (Nat × Nat)) :
    Contents { s with spn := Memory.ofList spans, spnCount := spans.length } :=
  { h with spnWf := Memory.wf_ofList spans, spn := isSome_read_ofList le_rfl }

theorem Contents.storePix (h : Contents s) (samples : List Half) :
    Contents { s with pix := Memory.ofList samples, pixLen := samples.length } :=
  { h with pixWf := Memory.wf_ofList samples, pix := isSome_read_ofList le_rfl }

theorem Contents.storeChi (h : Contents s) {chi : Memory Half} (hchi : Memory.wf chi = true) (rows : Nat) :
    Contents { s with chi := chi, chiRows := rows } :=
  { h with chiWf := hchi }

/-- R172, R174: DRGEN writes the table and brings the register back to its seed. -/
theorem Contents.drgenResult (h : Contents s) : Contents (drgenResult s) :=
  { h with
    drtWf := Memory.wf_ofList _
    table := fun i hi => by
      rw [Machine.drgenResult, Memory.read_ofList, drGenerate_get i hi, tableEntry]
    lfsr := lfsr_drgenResult s }

/-- R42: a block just reset, whatever its host and its count of resets. -/
theorem contents_reset (c : Config) (host : List HostAccess) (era : Nat) :
    Contents { State.resetWith c with host := host, era := era } where
  status := BitVec.zero_ushiftRight
  config := BitVec.zero_ushiftRight
  valid := BitVec.zero_ushiftRight
  capWf := rfl
  ldbWf := rfl
  fsWf := rfl
  drtWf := Memory.wf_ofList _
  dmxWf := rfl
  bndWf := rfl
  spnWf := rfl
  pixWf := rfl
  chiWf := rfl
  lineWf := rfl
  ldb _ hk := absurd hk (Nat.not_lt_zero _)
  fs _ hk := absurd hk (Nat.not_lt_zero _)
  dmx _ hk := absurd hk (Nat.not_lt_zero _)
  bnd _ hk := absurd hk (Nat.not_lt_zero _)
  spn _ hk := absurd hk (Nat.not_lt_zero _)
  pix _ hk := absurd hk (Nat.not_lt_zero _)
  table i hi := drt_resetWith c i hi
  lfsr := rfl
  good := Nat.zero_le 4

/-! ### The results of the commands -/

/-- R32: the counter of good frames stays below N_GOOD, which is 5, and in family D at 0. -/
theorem sourcePass_good_le (hwf : s.cfg.wf = true) (f : Family) : (sourcePass s f).lock.good ≤ 4 := by
  by_cases hf : f = .d
  · obtain ⟨_, _, hlock⟩ := familyDFindsExactlyTheMarkers s hwf
    rw [hf, hlock]
    exact Nat.zero_le 4
  · have hadmits := wf_transport hwf hf
    obtain ⟨_, _, _, hgood, hbad, hslip, _⟩ := transportAdmits_values hadmits
    obtain ⟨_, _, _, _, hbudget⟩ := transportAdmits_bounds hadmits
    obtain ⟨_, hrange⟩ := passKeepsCountersInRange (s.cfg.family f) (sourceDistance s f) (by omega) (by omega) (by omega)
      hbudget
    have hlock : LockInRange (s.cfg.family f) (sourcePass s f).lock := hrange (8 * srcLen s f)
    generalize (sourcePass s f).lock = L at hlock
    unfold LockInRange at hlock
    split at hlock <;> omega

/-- R133: as many bytes are decoded as LDB_LEN says. -/
theorem ldecBytes_length (s : State) : (ldecBytes s).length = s.capLen / 2 := by simp [ldecBytes]

/-- What a command that passes its checks stores keeps the contents sound. -/
theorem Contents.resultOf (hwf : s.cfg.wf = true) (h : Contents s) (i : Instr) : Contents (resultOf i s) := by
  have hpix : ∀ samples, Contents (putPix samples s) := fun samples =>
    ((h.clearValid _).storePix samples).setValid _
  have hdemux : ∀ bytes boundaries, Contents (putDemux bytes boundaries s) := fun bytes boundaries =>
    (((h.clearValid _).storeDemux bytes boundaries).putFlag _ _).setValid _
  cases i with
  | nop => exact h
  | reset => exact contents_reset s.cfg s.host (s.era + 1)
  | drgen => exact h.drgenResult
  | ldec => exact ((h.clearValid _).storeLdb (ldecBytes s) (ldecBytes_length s).ge).setValid _
  | demuxd => exact hdemux _ _
  | demuxm => exact hdemux _ _
  | spans => exact (((h.clearValid _).storeSpn _).putFlag _ _).setValid _
  | unpk16 => exact hpix _
  | sync =>
    cases hfam : family s with
    | none => rw [Machine.resultOf, syncResult, hfam]; exact h
    | some f =>
      rw [Machine.resultOf, syncResult_eq hfam]
      exact (((h.clearValid _).storePass (sourcePass s f) (sourcePass_good_le hwf f)).putFlag _ _).setValid _
  | unpk10 =>
    cases hfam : family s with
    | none => rw [Machine.resultOf, unpk10Result, hfam]; exact h
    | some f => rw [Machine.resultOf, unpk10Result_eq hfam]; exact hpix _
  | chsel =>
    cases hfam : family s with
    | none => rw [Machine.resultOf, chselResult, hfam]; exact h
    | some f =>
      rw [Machine.resultOf, chselResult_eq hfam]
      exact (h.clearValid _).storeChi (Memory.wf_writeList _ _ _ h.chiWf) _
  | decch =>
    cases hfam : family s with
    | none => rw [Machine.resultOf, decchResult, hfam]; exact h
    | some f =>
      rw [Machine.resultOf, decchResult_eq hfam]
      exact (((h.clearValid _).storeChi (Memory.wf_ofList _) _).putFlag _ _).setValid _

/-! ### The steps -/

/-- R36, R91: the end of a command leaves BUSY clear and no command in progress. -/
theorem sound_endCommand (h : Contents s) : Sound (endCommand s) :=
  (sound_iff _).2 ⟨h.endCommand, flag_endCommand .busy s⟩

/-- R35, R36, R91: the start of a command holds the code and sets BUSY. -/
theorem sound_startCommand (h : Contents s) (c : Byte) : Sound (startCommand c s) :=
  (sound_iff _).2 ⟨h.startCommand c, flag_startCommand c .busy s⟩

/-- R34 to R40: an access of the host writes its own objects in their form, and CMD with BUSY. -/
theorem sound_of_hostStep {t : State} (hsound : Sound s) (hhost : HostStep s t) : Sound t := by
  obtain ⟨h, hbusy⟩ := (sound_iff s).1 hsound
  cases hhost with
  | passes host => exact (sound_iff _).2 ⟨{ h with }, hbusy⟩
  | starts code host => exact sound_startCommand (s := { s with host := host }) { h with } code
  | writesCapLen n host =>
    have hstored : Contents { s with host := host, capLen := n } := { h with }
    exact (sound_iff _).2 ⟨hstored.clearValid _, hbusy⟩
  | writesNumber => exact (sound_iff _).2 ⟨{ h with }, hbusy⟩
  | writesCap k v host => exact (sound_iff _).2 ⟨{ h with capWf := Memory.wf_write _ k v h.capWf }, hbusy⟩
  | writesLine k v host => exact (sound_iff _).2 ⟨{ h with lineWf := Memory.wf_write _ k v h.lineWf }, hbusy⟩
  | writesConfig w host =>
    have hstored : Contents { s with host := host, config := w &&& configMask } :=
      { h with config := reserved_stored w }
    unfold writeConfig
    split
    · exact (sound_iff _).2 ⟨hstored, hbusy⟩
    · exact (sound_iff _).2 ⟨hstored.clearValid _, hbusy⟩

end

/-- Settles O58: an access of the host keeps the invariant; a refusal and the result of a command keep the contents sound,
and their end sets BUSY as CMD. -/
theorem everyStepKeepsTheInvariant : Obligations.EveryStepKeepsTheInvariant := by
  intro s t hsound hstep
  obtain ⟨hwf, _⟩ := step_next hstep
  obtain ⟨h, _⟩ := (sound_iff s).1 hsound
  rcases step_next_cases hstep with hhost | ⟨_, i, _, _, hexec⟩ | rfl
  · exact sound_of_hostStep hsound hhost
  · rcases (exec_next_iff i s t).1 hexec with ⟨e, _, rfl⟩ | ⟨_, rfl⟩
    · exact sound_endCommand (h.setFlag e.flag)
    · exact sound_endCommand (h.resultOf hwf i)
  · exact sound_endCommand (h.setFlag _)

/-- Settles O18: each register holds its value of R42, and DRT the generated table. -/
theorem powerOnResetValues : Obligations.PowerOnResetValues := by
  refine ⟨rfl, rfl, rfl, rfl, rfl, rfl, rfl, rfl, rfl, rfl, rfl, rfl, rfl, rfl, rfl, rfl, rfl, rfl, rfl, fun i hi => ?_⟩
  have hread : Memory.read State.reset.drt i = some (tableEntry i) := drt_resetWith Config.reference i hi
  rw [drtByte, hread, Option.getD_some]

/-- Settles O60: the contents after reset are sound and no command is in progress; V_FS is clear. -/
theorem invariantsHoldAtReset : Obligations.InvariantsHoldAtReset :=
  ⟨(sound_iff _).2 ⟨contents_reset Config.reference [] 0, rfl⟩, frameStartsWhole_of_invalid rfl⟩

end Sys2Proof.Machine
end

section
/-! PROOF. The generated table (O23): the register has period 255 and no smaller one, which carries over to the bits and the
bytes put out, and 1020 bytes are four periods of 255, each with the sum of the first (R171, R172). -/
namespace Sys2Proof.Machine

/-! ### Periods -/

theorem lfsrAfter_add_period_mul (n m : Nat) : lfsrAfter (n + 255 * m) = lfsrAfter n := by
  induction m with
  | zero => rfl
  | succ m ih => rw [Nat.mul_succ, ← Nat.add_assoc, lfsrAfter_add_255, ih]

theorem drBit_add_255 (n : Nat) : drBit (n + 255) = drBit n := by
  rw [drBit_eq_lfsrOut, lfsrAfter_add_255, ← drBit_eq_lfsrOut]

/-- 255 bytes are eight periods of the register. -/
theorem drByte_add_255 (k : Nat) : drByte (k + 255) = drByte k := by
  rw [drByte, show 8 * (k + 255) = 8 * k + 255 * 8 by omega, lfsrAfter_add_period_mul, drByte]

/-- The register is not back at its seed before 255 shifts. -/
theorem lfsrAfter_ne_seed : ∀ p < 255, 0 < p → lfsrAfter p ≠ lfsrSeed := by decide +kernel

/-- The next eight output bits are the register, so a period of the bits is one of the register. -/
theorem lfsrAfter_of_drBit_period {p : Nat} (h : ∀ n, drBit (n + p) = drBit n) : lfsrAfter p = lfsrSeed := by
  apply BitVec.eq_of_getLsbD_eq
  intro i hi
  have hbit : ∀ n, (lfsrAfter n).getLsbD i = drBit (n + (7 - i)) := fun n => by
    rw [drBit_add n (by omega), Nat.sub_sub_self (by omega)]
  calc (lfsrAfter p).getLsbD i
      = drBit (0 + (7 - i) + p) := by rw [hbit, Nat.zero_add, Nat.add_comm]
    _ = (lfsrAfter 0).getLsbD i := by rw [h, hbit]

/-! ### The sum -/

theorem lfsrBytes_add (m n : Nat) (r : Byte) :
    (lfsrBytes (m + n) r).2 = (lfsrBytes m r).2 ++ (lfsrBytes n (lfsrBytes m r).1).2 := by
  induction m generalizing r with
  | zero => rw [Nat.zero_add]; rfl
  | succ m ih =>
    rw [Nat.add_right_comm]
    exact congrArg (List.cons _) (ih _)

/-- R172: the sum of the bytes of one period. -/
theorem lfsrBytes_period_sum : ((lfsrBytes 255 lfsrSeed).2.map (·.toNat)).sum = 32640 := by decide +kernel

/-- Every period of 255 bytes starts from the seed. -/
theorem lfsrBytes_periods_sum (m : Nat) : ((lfsrBytes (255 * m) lfsrSeed).2.map (·.toNat)).sum = 32640 * m := by
  induction m with
  | zero => rfl
  | succ m ih =>
    rw [Nat.mul_succ, lfsrBytes_add, lfsrBytes_register_of_dvd (Nat.dvd_mul_right 255 m), List.map_append,
      List.sum_append, ih, lfsrBytes_period_sum, Nat.mul_succ]

/-- R172: the four zeros add nothing to the four periods. -/
theorem drGenerate_sum : (drGenerate.2.map (·.toNat)).sum = 130560 :=
  calc (drGenerate.2.map (·.toNat)).sum
      = ([0x00#8, 0x00#8, 0x00#8, 0x00#8].map (·.toNat)).sum + ((lfsrBytes (255 * 4) lfsrSeed).2.map (·.toNat)).sum := by
        rw [← List.sum_append, ← List.map_append]; rfl
    _ = 130560 := by rw [lfsrBytes_periods_sum]; rfl

/-- Settles O23: the entries are read off the generated list, and the named bytes, periods and sum are those of the
register's period. -/
theorem tableHasItsProperties : Obligations.TableHasItsProperties := by
  refine ⟨fun i hi => ?zeros, fun k hk => ?bytes, drGenerate_length, by decide, by decide, ?last, drBit_add_255,
    fun p hpos hp => ?minimal, drByte_add_255, lfsrAfter_period_mul 32, drGenerate_sum⟩
  case zeros => rw [drGenerate_get i (by omega), if_pos hi]
  case bytes => rw [drGenerate_get (4 + k) (by omega), if_neg (by omega), Nat.add_sub_cancel_left]
  case last =>
    have hfirst : drByte 254 = 0x58#8 := by decide +kernel
    rw [← hfirst, ← drByte_add_255 254, ← drByte_add_255 (254 + 255), ← drByte_add_255 (254 + 255 + 255)]
  case minimal =>
    by_contra hnone
    refine lfsrAfter_ne_seed p hp hpos (lfsrAfter_of_drBit_period fun n => ?_)
    by_contra hbit
    exact hnone ⟨n, hbit⟩

end Sys2Proof.Machine
end

section
/-! PROOF. Frame bytes (O24): a byte assembled at a byte boundary is put together from the bits of one byte of the buffer, in
the family's order and polarity (R60, R61, R122, R123). -/
namespace Sys2Proof.Machine

/-- R61, R122: bit `i` of the byte read at byte `n` is bit `8 n + (7 - i)` of the sequence. -/
theorem getLsbD_byteAt_aligned (S : Nat → Bool) (n : Nat) {i : Nat} (hi : i < 8) :
    (byteAt S (8 * n)).getLsbD i = S (8 * n + (7 - i)) := by
  rw [← getLsbD_byteAt S (8 * n) (7 - i) (by omega), Nat.sub_sub_self (by omega)]

/-- R60, R61: most significant bit first, each bit comes back to its place. -/
theorem getLsbD_aligned_msb {k : FamilyConsts} (horder : k.bitOrder = .msb) (B : Nat → Byte) (n : Nat) {i : Nat} (hi : i < 8) :
    (byteAt (bits k B) (8 * n)).getLsbD i = ((B n).getLsbD i ^^ k.invert) := by
  have hbyte : (8 * n + (7 - i)) / 8 = n := by omega
  have hbit : 7 - (8 * n + (7 - i)) % 8 = i := by omega
  rw [getLsbD_byteAt_aligned _ n hi, bits, horder, bitOf, hbyte, hbit]

/-- R60, R61: least significant bit first, the bits come back reversed. -/
theorem getLsbD_aligned_lsb {k : FamilyConsts} (horder : k.bitOrder = .lsb) (B : Nat → Byte) (n : Nat) {i : Nat} (hi : i < 8) :
    (byteAt (bits k B) (8 * n)).getLsbD i = ((B n).getLsbD (7 - i) ^^ k.invert) := by
  have hbyte : (8 * n + (7 - i)) / 8 = n := by omega
  have hbit : (8 * n + (7 - i)) % 8 = 7 - i := by omega
  rw [getLsbD_byteAt_aligned _ n hi, bits, horder, bitOf, hbyte, hbit]

/-- Settles O24: bit by bit. -/
theorem alignedByteReadsBack : Obligations.AlignedByteReadsBack := by
  refine ⟨fun S fs k j hj => getLsbD_byteAt S (fs + 8 * k) j hj, fun k B n =>
    ⟨fun horder hinvert => ?msb, fun horder hinvert j hj => ?lsb, fun horder hinvert => ?inverted⟩⟩
  case msb =>
    refine BitVec.eq_of_getLsbD_eq fun i hi => ?_
    rw [getLsbD_aligned_msb horder B n hi, hinvert, Bool.xor_false]
  case lsb => rw [getLsbD_aligned_lsb horder B n hj, hinvert, Bool.xor_false]
  case inverted =>
    refine BitVec.eq_of_getLsbD_eq fun i hi => ?_
    rw [getLsbD_aligned_msb horder B n hi, hinvert, Bool.xor_true, BitVec.getLsbD_not, decide_eq_true hi, Bool.true_and]

end Sys2Proof.Machine
end

section
/-! PROOF. The two distances (O31, O32): each counts places in which the window and the marker differ, and the 96 places of
six words are the 16 bits of each, so that for words read most significant byte first they count the same (R140 to R143). -/
namespace Sys2Proof.Machine

/-! ### Distance 0 and the largest distance -/

/-- R141: the window is at distance 0 exactly when it is the marker. -/
theorem hamming_eq_zero_iff (k : FamilyConsts) (S : Nat → Bool) (p : Nat) :
    hamming k S p = 0 ↔ ∀ j, j < k.w → S (p + j) = markerBit k j := by
  simp only [hamming, List.sum_eq_zero_iff, List.forall_mem_map, List.mem_range, bitNat_eq_zero_iff, bne_eq_false_iff_eq]

theorem bitNat_le_one (b : Bool) : bitNat b ≤ 1 := by cases b <;> decide

/-- R141: each of the W places counts at most once. -/
theorem hamming_le (k : FamilyConsts) (S : Nat → Bool) (p : Nat) : hamming k S p ≤ k.w := by
  have hplaces := List.sum_le_card_nsmul ((List.range k.w).map fun j => bitNat (S (p + j) ^^ markerBit k j)) 1
    (List.forall_mem_map.2 fun _ _ => bitNat_le_one _)
  simpa [hamming] using hplaces

/-- Settles O31: no threshold is below 0. -/
theorem markerIsAcceptedInEveryState : Obligations.MarkerIsAcceptedInEveryState :=
  ⟨hamming_eq_zero_iff, hammingD_eq_zero_iff, fun _ _ => accepted_iff.2 (Nat.zero_le _), hamming_le⟩

/-! ### Six words and 96 bits -/

/-- A sum over `n` runs of `m` places, place by place. -/
theorem sum_range_mul (f : Nat → Nat) (m n : Nat) :
    ((List.range (m * n)).map f).sum = ((List.range n).map fun j => ((List.range m).map fun i => f (m * j + i)).sum).sum := by
  induction n with
  | zero => rfl
  | succ n ih =>
    rw [Nat.mul_succ, List.range_add, List.map_append, List.sum_append, ih, List.range_succ, List.map_append,
      List.sum_append, List.map_map, List.map_singleton, List.sum_singleton]
    rfl

/-- R11: the bits of a word may be counted from the most significant one on. -/
theorem popcount16_msb_first (v : Half) : popcount16 v = ((List.range 16).map fun i => bitNat (v.getLsbD (15 - i))).sum :=
  (Finset.sum_range_reflect (fun b => bitNat (v.getLsbD b)) 16).symm

/-- R204: bit `15 - i` of a BE word is bit `i` of its two bytes, most significant first. -/
theorem getLsbD_word16_be (B : Nat → Byte) (w : Nat) {i : Nat} (hi : i < 16) :
    (word16 .be B w).getLsbD (15 - i) = bitOf .msb false B (16 * w + i) := by
  rw [word16, wordOf, BitVec.getLsbD_append, bitOf, Bool.xor_false]
  by_cases hfirst : i < 8
  · rw [if_neg (by omega), show (16 * w + i) / 8 = 2 * w by omega, show (16 * w + i) % 8 = i by omega,
      show 15 - i - 8 = 7 - i by omega]
  · rw [if_pos (by omega), show (16 * w + i) / 8 = 2 * w + 1 by omega,
      show 7 - (16 * w + i) % 8 = 15 - i by omega]

/-- R142: bit `15 - i` of marker word `j` is marker bit `16 j + i` (log 16). -/
theorem getLsbD_markerWord {k : FamilyConsts} (hw : k.w = 96) {i j : Nat} (hi : i < 16) (hj : j < 6) :
    (markerWord k j).getLsbD (15 - i) = markerBit k (16 * j + i) := by
  rw [markerWord, BitVec.getLsbD_ofNat, decide_eq_true (by omega), Bool.true_and, Nat.testBit_shiftRight, markerBit, hw,
    show 16 * (5 - j) + (15 - i) = 96 - 1 - (16 * j + i) by omega]

/-- Settles O32: place `i` of word `j` is place `16 j + i` of the window. -/
theorem wordDistanceIsTheBitDistance : Obligations.WordDistanceIsTheBitDistance := by
  intro k B q hw horder hinvert
  have hbits : bits k B = bitOf .msb false B := by rw [bits, horder, hinvert]
  have hplace : ∀ j, j < 6 → ∀ i, i < 16 → (word16 .be B (q + j) ^^^ markerWord k j).getLsbD (15 - i) =
      (bits k B (16 * q + (16 * j + i)) ^^ markerBit k (16 * j + i)) := fun j hj i hi => by
    rw [BitVec.getLsbD_xor, getLsbD_word16_be B _ hi, getLsbD_markerWord hw hi hj, hbits, Nat.mul_add, Nat.add_assoc]
  rw [hamming, hw, sum_range_mul _ 16 6, hammingD, Nat.mul_div_cancel_left q (by decide)]
  refine congrArg List.sum (List.map_congr_left fun j hj => ?_)
  rw [popcount16_msb_first]
  exact congrArg List.sum (List.map_congr_left fun i hi =>
    congrArg bitNat (hplace j (List.mem_range.1 hj) i (List.mem_range.1 hi)))

end Sys2Proof.Machine
end

section
/-! PROOF. Packed samples (O40, O41): in a group of five bytes, sample `c` is the low `8 - 2 c` bits of byte `c` above the
high `2 + 2 c` bits of the next, which are ten consecutive bits and, after packing, the value packed (R200, R201). -/
namespace Sys2Proof.Machine

/-- R200: the four cases of the packed sample as one, over two neighbouring bytes. -/
theorem sample10_eq_or (B : Nat → Byte) (a q : Nat) {c : Nat} (hc : c < 4) :
    sample10 B a (4 * q + c) =
      (((B (a + 5 * q + c)).toNat % 2 ^ (8 - 2 * c)) <<< (2 + 2 * c)) |||
        ((B (a + 5 * q + (c + 1))).toNat >>> (6 - 2 * c)) := by
  have hgroup : (4 * q + c) / 4 = q := by omega
  have hcase : (4 * q + c) % 4 = c := by omega
  simp only [sample10, hgroup, hcase]
  match c, hc with
  | 0, _ => rw [Nat.mod_eq_of_lt (B (a + 5 * q + 0)).isLt]; rfl
  | 1, _ => rfl
  | 2, _ => rfl
  | 3, _ => rfl

/-- R200: and as a number, since the two parts do not overlap. -/
theorem sample10_eq_add (B : Nat → Byte) (a q : Nat) {c : Nat} (hc : c < 4) :
    sample10 B a (4 * q + c) =
      (B (a + 5 * q + c)).toNat % 2 ^ (8 - 2 * c) * 2 ^ (2 + 2 * c) +
        (B (a + 5 * q + (c + 1))).toNat / 2 ^ (6 - 2 * c) := by
  have hlow : (B (a + 5 * q + (c + 1))).toNat >>> (6 - 2 * c) < 2 ^ (2 + 2 * c) := by
    rw [Nat.shiftRight_eq_div_pow, Nat.div_lt_iff_lt_mul (Nat.two_pow_pos _), ← Nat.pow_add,
      show 2 + 2 * c + (6 - 2 * c) = 8 by omega]
    exact (B (a + 5 * q + (c + 1))).isLt
  rw [sample10_eq_or B a q hc, ← Nat.shiftLeft_add_eq_or_of_lt hlow, Nat.shiftLeft_eq, Nat.shiftRight_eq_div_pow]

/-- R60: a bit of the buffer read most significant bit first, at a place of a given byte. -/
theorem bitOf_msb (B : Nat → Byte) {n m p : Nat} (hm : m < 8) (hp : p = 8 * n + m) :
    bitOf .msb false B p = (B n).toNat.testBit (7 - m) := by
  rw [bitOf, Bool.xor_false, hp, show (8 * n + m) / 8 = n by omega, show (8 * n + m) % 8 = m by omega]
  rfl

/-- R200: bit `9 - j` of sample `c` of a group is bit `2 c + j` from byte `c` of the group on. -/
theorem testBit_sample10 (B : Nat → Byte) (a q : Nat) {c j : Nat} (hc : c < 4) (hj : j < 10) :
    (sample10 B a (4 * q + c)).testBit (9 - j) = bitOf .msb false B (8 * (a + 5 * q + c) + (2 * c + j)) := by
  rw [sample10_eq_or B a q hc, Nat.testBit_or, Nat.testBit_shiftLeft, Nat.testBit_mod_two_pow, Nat.testBit_shiftRight]
  by_cases hhigh : 2 * c + j < 8
  · have hbeyond : (B (a + 5 * q + (c + 1))).toNat.testBit (6 - 2 * c + (9 - j)) = false :=
      Nat.testBit_lt_two_pow (Nat.lt_of_lt_of_le (B _).isLt (Nat.pow_le_pow_right (by decide) (by omega)))
    rw [hbeyond, bitOf_msb B hhigh rfl, decide_eq_true (by omega), decide_eq_true (by omega),
      show 9 - j - (2 + 2 * c) = 7 - (2 * c + j) by omega, Bool.true_and, Bool.true_and, Bool.or_false]
  · rw [bitOf_msb B (n := a + 5 * q + (c + 1)) (m := 2 * c + j - 8) (by omega) (by omega), decide_eq_false (by omega),
      show 6 - 2 * c + (9 - j) = 7 - (2 * c + j - 8) by omega, Bool.false_and, Bool.false_or]

/-- Settles O40: sample `i` is sample `i % 4` of group `i / 4`. -/
theorem packedSampleIsTenBits : Obligations.PackedSampleIsTenBits := by
  intro B a i
  refine ⟨sample10_lt B a i, fun j hj => ?_⟩
  have hbit := testBit_sample10 B a (i / 4) (Nat.mod_lt i (by decide)) hj
  rwa [Nat.div_add_mod, show 8 * (a + 5 * (i / 4) + i % 4) + (2 * (i % 4) + j) = 8 * a + 10 * i + j by omega] at hbit

/-- Settles O41: in each byte the two packed parts do not overlap, and each sample puts its own two parts together. -/
theorem packThenUnpackReturnsTheSamples : Obligations.PackThenUnpackReturnsTheSamples := by
  intro B a q v0 v1 v2 v3 h0 h1 h2 h3 hb0 hb1 hb2 hb3 hb4
  have hjoin : ∀ (m x y : Nat), y < 2 ^ m → (x <<< m) ||| y = 2 ^ m * x + y := fun m x y hy => by
    rw [← Nat.shiftLeft_add_eq_or_of_lt hy, Nat.shiftLeft_eq, Nat.mul_comm]
  rw [Nat.shiftRight_eq_div_pow] at hb0
  rw [Nat.shiftRight_eq_div_pow, hjoin _ _ _ (by omega)] at hb1 hb2 hb3
  have hsample := fun c => sample10_eq_add B a q (c := c)
  refine ⟨(hsample 0 (by decide)).trans ?_, (hsample 1 (by decide)).trans ?_, (hsample 2 (by decide)).trans ?_,
    (hsample 3 (by decide)).trans ?_⟩
  · rw [Nat.add_zero, hb0, hb1]; omega
  · rw [hb1, hb2]; omega
  · rw [hb2, hb3]; omega
  · rw [hb3, hb4]; omega

end Sys2Proof.Machine
end
